-- ==== Sys2Proof/Word.lean ====
section
/-! DEFINITION. The words of the hardware, named by what the spec calls them (00_scope.md R16; 10_state.md R21, R25, R28;
30_encoding.md R110, R125, R130). All values are unsigned; bit 0 is the least significant bit. -/

namespace Sys2Proof

/-- Eight bits: one clock edge's worth of the data lanes (20_memory.md R94). -/
abbrev Byte := BitVec 8

/-- Sixteen bits: one slot's worth of data (00_scope.md R18, R19). -/
abbrev HalfWord := BitVec 16

/-- A half-word address `ha` (20_memory.md R70): it counts half-words, not bytes. -/
abbrev HalfAddr := BitVec 32

/-- A per-byte mask: bit 1 for bits 15:8, bit 0 for bits 7:0 (20_memory.md R62). -/
abbrev Mask := BitVec 2

/-- A command-address packet (30_encoding.md R112). -/
abbrev CaPacket := BitVec 48

/-- The flat `cmd` item `CMDW` (30_encoding.md R110). -/
abbrev CmdWord := BitVec 35

/-- The flat `wdata` item `WDW` (30_encoding.md R130). -/
abbrev WdWord := BitVec 19

/-- The CSR word (30_encoding.md R125). -/
abbrev CsrWord := BitVec 32

end Sys2Proof
end

