-- ==== Sys2Proof/Syntax.lean ====
section
/-! DEFINITION. The operations of spec/opcode_table.json and the items of the NativePort channels (30_encoding.md R110, R130,
R142; 20_memory.md R62). -/

namespace Sys2Proof

/-- A `cmd` item (20_memory.md R62; 30_encoding.md R110). `we`: write; `aspace`: register space; `burst`: `burst_type`, linear;
`addr`: half-word address. -/
structure Cmd where
  we     : Bool
  aspace : Bool
  burst  : Bool
  addr   : HalfAddr
deriving DecidableEq, Repr, Inhabited

/-- A `wdata` item (20_memory.md R62): data, per-byte write enables, and whether it is the burst's final word. -/
structure WItem where
  data : HalfWord
  we   : Mask
  last : Bool
deriving DecidableEq, Repr, Inhabited

/-- The instructions: one constructor per row of the opcode table (30_encoding.md R142). The words of a burst are not operands of
the item: they travel on `wdata` and `rdata` (20_memory.md R62 to R64). -/
inductive Instr where
  /-- `MEM_RD` (41_controller.md R236) -/
  | memRd (burst : Bool) (addr : HalfAddr)
  /-- `MEM_WR` (41_controller.md R235) -/
  | memWr (burst : Bool) (addr : HalfAddr)
  /-- `REG_RD` (41_controller.md R238) -/
  | regRd (burst : Bool) (addr : HalfAddr)
  /-- `REG_WR` (41_controller.md R237) -/
  | regWr (burst : Bool) (addr : HalfAddr)
  /-- `CTL_AUTOCFG` (41_controller.md R240): autonomous, no encoding at a port -/
  | ctlAutocfg
  /-- `CSR_LATCH` (43_registerspace.md R316) -/
  | csrLatch (we : Bool) (die : BitVec 2) (type : BitVec 8) (nr : BitVec 3) (value : HalfWord)
  /-- `CSR_GO_WR` (43_registerspace.md R317) -/
  | csrGoWr (die : BitVec 2) (type : BitVec 8) (nr : BitVec 3) (value : HalfWord)
  /-- `CSR_GO_RD` (43_registerspace.md R318); `value` is latched and then overwritten by the result -/
  | csrGoRd (die : BitVec 2) (type : BitVec 8) (nr : BitVec 3) (value : HalfWord)
  /-- `CSR_READ` (43_registerspace.md R319): no operand word -/
  | csrRead
  /-- `RS_SETUP` (43_registerspace.md R320): autonomous, cannot be requested -/
  | rsSetup
deriving DecidableEq, Repr

/-- What a client can present: a `cmd` item on the data port as its flat word, a CSR write with its word, or a CSR read, which has
no word (30_encoding.md R110, R126; 43_registerspace.md R300). -/
inductive Request where
  | cmd (w : CmdWord)
  | csrWrite (w : CsrWord)
  | csrRead
deriving DecidableEq, Repr

/-- The item of a scenario script (30_encoding.md R140): a transaction with the words of its burst or the number of words it
takes, or a pause. `linear` is the notation's `lin` (1) or `wrap` (0). -/
inductive ScriptItem where
  | memWr (addr : HalfAddr) (linear : Bool) (words : List (HalfWord × Mask))
  | memRd (addr : HalfAddr) (linear : Bool) (n : Nat)
  | regWr (addr : HalfAddr) (linear : Bool) (words : List (HalfWord × Mask))
  | regRd (addr : HalfAddr) (linear : Bool) (n : Nat)
  | wait (n : Nat)
deriving DecidableEq, Repr

/-- A CSR event of a scenario (30_encoding.md R140): a write or a read in a given cycle. -/
inductive CsrEvent where
  | write (cycle : Nat) (word : CsrWord)
  | read (cycle : Nat)
deriving DecidableEq, Repr

end Sys2Proof
end

