-- ==== Sys2Proof/WellFormed.lean ====
section
/-! DEFINITION. The well-formedness checks. Every operand value of every client operation is legal (30_encoding.md R111, R126,
R132), so the check on an instruction is whether a client can select it at all (41_controller.md R240; 43_registerspace.md R320).
The check on a burst is the shape of 20_memory.md R63 and R64. -/

namespace Sys2Proof

/-- A client can select the instruction: it has an encoding at a port. The two autonomous sequences have none ("not selectable by
any client", 41_controller.md R240; "cannot be requested", 43_registerspace.md R320). -/
def Instr.wellFormed : Instr → Bool
  | .memRd _ _ => true
  | .memWr _ _ => true
  | .regRd _ _ => true
  | .regWr _ _ => true
  | .ctlAutocfg => false
  | .csrLatch _ _ _ _ _ => true
  | .csrGoWr _ _ _ _ => true
  | .csrGoRd _ _ _ _ => true
  | .csrRead => true
  | .rsSetup => false

/-- A write burst is well formed when it has at least one word and `last` stands on the final word and on no other
(20_memory.md R63, R64). -/
def burstWellFormed : List WItem → Bool
  | [] => false
  | [w] => w.last
  | w :: ws => !w.last && burstWellFormed ws

/-- A script item is well formed when its burst has at least one word (20_memory.md R63). -/
def ScriptItem.wellFormed : ScriptItem → Bool
  | .memWr _ _ ws => !ws.isEmpty
  | .memRd _ _ n => decide (0 < n)
  | .regWr _ _ ws => !ws.isEmpty
  | .regRd _ _ n => decide (0 < n)
  | .wait _ => true

end Sys2Proof
end

