-- ==== Sys2Proof/Decode.lean ====
section
/-! DEFINITION. Encodings and decoding of what clients present (30_encoding.md R110, R111, R125, R126, R130), and the encoder
beside it. Decoding is total on bytes and refuses by name. -/

namespace Sys2Proof

/-- Why a byte string is no request. -/
inductive DecodeError where
  /-- No port item has this many bytes: a CSR read has none, a CSR write word four, a `cmd` item five. Safe. -/
  | noPortItemOfThisLength
  /-- The bits above the 35 of a `cmd` item are not zero. Safe. -/
  | commandPaddingNotZero
deriving DecidableEq, Repr

/-- `CMDW = {we, aspace, burst_type, addr[31:0]}` (30_encoding.md R110). -/
def Cmd.toWord (c : Cmd) : CmdWord :=
  BitVec.ofBool c.we ++ BitVec.ofBool c.aspace ++ BitVec.ofBool c.burst ++ c.addr

/-- The `cmd` item of a flat word (30_encoding.md R110). -/
def Cmd.ofWord (w : CmdWord) : Cmd :=
  { we := w.getLsbD 34, aspace := w.getLsbD 33, burst := w.getLsbD 32, addr := w.extractLsb' 0 32 }

/-- `WDW = {last, we[1:0], data[15:0]}` (30_encoding.md R130). -/
def WItem.toWord (i : WItem) : WdWord :=
  BitVec.ofBool i.last ++ i.we ++ i.data

/-- The `wdata` item of a flat word (30_encoding.md R130). -/
def WItem.ofWord (w : WdWord) : WItem :=
  { data := w.extractLsb' 0 16, we := w.extractLsb' 16 2, last := w.getLsbD 18 }

/-- The CSR word with the given fields (30_encoding.md R125): `{busy, strobe, we, die_nr, reg_type, reg_nr, reg_value}`. -/
def csrWordOf (busy strobe we : Bool) (die : BitVec 2) (type : BitVec 8) (nr : BitVec 3) (value : HalfWord) : CsrWord :=
  BitVec.ofBool busy ++ BitVec.ofBool strobe ++ BitVec.ofBool we ++ die ++ type ++ nr ++ value

/-- The transaction kind of a `cmd` item (30_encoding.md R111). -/
def decodeCmd (c : Cmd) : Instr :=
  match c.we, c.aspace with
  | false, false => .memRd c.burst c.addr
  | true, false => .memWr c.burst c.addr
  | false, true => .regRd c.burst c.addr
  | true, true => .regWr c.burst c.addr

/-- The CSR operation of a written word (30_encoding.md R126; the opcode table's CSR rows): bit 30 is `strobe`, bit 29 `we`;
bit 31 is ignored. -/
def decodeCsrWrite (w : CsrWord) : Instr :=
  let value := w.extractLsb' 0 16
  let nr := w.extractLsb' 16 3
  let type := w.extractLsb' 19 8
  let die := w.extractLsb' 27 2
  match w.getLsbD 30, w.getLsbD 29 with
  | false, we => .csrLatch we die type nr value
  | true, true => .csrGoWr die type nr value
  | true, false => .csrGoRd die type nr value

/-- The instruction a client's request stands for. Every word of either port is one (30_encoding.md R132). -/
def Request.decode : Request → Instr
  | .cmd w => decodeCmd (Cmd.ofWord w)
  | .csrWrite w => decodeCsrWrite w
  | .csrRead => .csrRead

/-- The bits of a byte string, the first byte least significant: the order spec/opcode_table.json's words are laid out in. -/
def bytesToNat : List Byte → Nat
  | [] => 0
  | b :: bs => b.toNat + 256 * bytesToNat bs

/-- The `n` low bytes of a number, the least significant first. -/
def natToBytes : Nat → Nat → List Byte
  | 0, _ => []
  | n + 1, w => BitVec.ofNat 8 w :: natToBytes n (w / 256)

/-- The request a byte string is. The port is told by the length: the spec gives each port its own item and no common format
(30_encoding.md R110, R125; 43_registerspace.md R319 "no operand"). -/
def requestOfBytes (bs : List Byte) : Except DecodeError Request :=
  match bs.length with
  | 0 => .ok .csrRead
  | 4 => .ok (.csrWrite (BitVec.ofNat 32 (bytesToNat bs)))
  | 5 => if bytesToNat bs < 2 ^ 35 then .ok (.cmd (BitVec.ofNat 35 (bytesToNat bs))) else .error .commandPaddingNotZero
  | _ => .error .noPortItemOfThisLength

/-- The decoder: total on any bytes, refusing by name. -/
def decode (bs : List Byte) : Except DecodeError Instr :=
  (requestOfBytes bs).map Request.decode

/-- The request that presents an instruction (30_encoding.md R110, R111, R125); the autonomous sequences have none. -/
def Instr.request? : Instr → Option Request
  | .memRd b a => some (.cmd ({ we := false, aspace := false, burst := b, addr := a } : Cmd).toWord)
  | .memWr b a => some (.cmd ({ we := true, aspace := false, burst := b, addr := a } : Cmd).toWord)
  | .regRd b a => some (.cmd ({ we := false, aspace := true, burst := b, addr := a } : Cmd).toWord)
  | .regWr b a => some (.cmd ({ we := true, aspace := true, burst := b, addr := a } : Cmd).toWord)
  | .ctlAutocfg => none
  | .csrLatch we die type nr value => some (.csrWrite (csrWordOf false false we die type nr value))
  | .csrGoWr die type nr value => some (.csrWrite (csrWordOf false true true die type nr value))
  | .csrGoRd die type nr value => some (.csrWrite (csrWordOf false true false die type nr value))
  | .csrRead => some .csrRead
  | .rsSetup => none

/-- The bytes of a request, the first byte least significant. -/
def Request.toBytes : Request → List Byte
  | .cmd w => natToBytes 5 w.toNat
  | .csrWrite w => natToBytes 4 w.toNat
  | .csrRead => []

/-- The encoder: the bytes of an instruction a client can select (empty for the two it cannot, which are not well formed). -/
def encode (i : Instr) : List Byte :=
  match i.request? with
  | some r => r.toBytes
  | none => []

/-- The request whose word is given as a number, `nbits` being the bits the table gives its row. -/
def requestOfWord? (nbits w : Nat) : Option Request :=
  (requestOfBytes (natToBytes ((nbits + 7) / 8) w)).toOption

/-- The instruction the decoder reads from an instruction whose bits are `w`. -/
def decodeTableWord (nbits w : Nat) : Option Instr :=
  (decode (natToBytes ((nbits + 7) / 8) w)).toOption

end Sys2Proof
end

