-- ==== Sys2Proof/Config.lean ====
section
/-! DEFINITION. What an implementation fixes: the device profile, the construction inputs, the configuration record and the
construction errors (00_scope.md R8; 40_configuration.md R150, R151, R173; 60_exceptions.md R371), and the free values: constants
without a body, for what the spec leaves open to the environment. -/

namespace Sys2Proof

/-- 16-bit half-words moved per controller cycle (00_scope.md R8): the two Controller variants. -/
inductive Lanes where
  | one
  | two
deriving DecidableEq, Repr

/-- DeviceProfile (40_configuration.md R150): static constants of a memory part. `minLatency` is the part's "function mapping
operating clock frequency to minimum legal initial latency". -/
structure DeviceProfile where
  maxClock          : Nat
  bankCount         : Nat
  rows              : Nat
  columns           : Nat
  maxInitialLatency : Nat
  minLatency        : Nat → Nat

/-- The construction inputs (40_configuration.md R151). `ilOverride`, `fixedOverride` and `cr0Base` are optional; `WIDE_PACKING` is not
taken (00_scope.md R8). -/
structure ConstructInputs where
  profile       : DeviceProfile
  clkFreq       : Nat
  lanes         : Lanes
  txLatency     : Nat
  rxLatency     : Nat
  ilOverride    : Option Nat
  fixedOverride : Option Bool
  cr0Base       : Option HalfWord

/-- The labels of `ConfigurationError` (60_exceptions.md R371), in the order of the checks (40_configuration.md R162). -/
inductive ConfigurationError where
  | e0Profile
  | e1Freq
  | e2Range
  | e3MinLat
  | e4FixedRequired
  | e5PhyRoundtrip
  | e6LongNegative
  | e7SampleWindow
  | e8Dlycnt
  | e9Wide
deriving DecidableEq, Repr

/-- `CFG` (00_scope.md R8; 40_configuration.md R173), fixed for the controller's lifetime. `CR0` and the delay constants are functions
of it (Machine/Construct.lean). `lanes` is `.one` in every configuration construction accepts (40_configuration.md R161, `E9_WIDE`). -/
structure Cfg where
  lanes     : Lanes
  nbanks    : Nat
  dieBit    : Nat
  clkFreq   : Nat
  txLatency : Nat
  rxLatency : Nat
  il        : Nat
  fixed     : Bool
  cr0Base   : HalfWord
deriving DecidableEq, Repr

/-- `phy.dq_in` of a cycle for which neither the schedule nor a device gives it: any value. -/
opaque Config.freeDqIn : Nat → HalfWord

/-- `phy.rwds_in` of a cycle for which neither the schedule nor a device gives it: any value. -/
opaque Config.freeRwdsIn : Nat → Mask

/-- `phy.pll_locked` of a cycle for which neither the schedule nor a device gives it: any value. -/
opaque Config.freePllLocked : Nat → Bool

/-- The byte a device reads, in a given cycle, at a byte key nothing has written (93_implementation_defined.md U10): any value. -/
opaque Config.unwrittenByte : Nat → Nat → Byte

/-- The device's draw of the extra latency in a given cycle (20_memory.md R104): any value. -/
opaque Config.latencyDraw : Nat → Bool

/-- What the device samples on data lanes nobody drives, in a given cycle: any value. -/
opaque Config.undrivenDq : Nat → HalfWord

/-- What the device samples on RWDS when nobody drives it, in a given cycle: any value. -/
opaque Config.undrivenRwds : Nat → Mask

/-- The device's latency for a code outside the table of 40_configuration.md R157 (20_memory.md R102 "outside ENV-REF"): any
value. -/
opaque Config.latencyOfOtherCode : BitVec 4 → Nat

/-- The half-word address a device uses for a later word of a wrapped burst (20_memory.md R79, R105; 93_implementation_defined.md
U14): any address, by its CR0, the start address and the number of the word. -/
opaque Config.wrappedAddr : HalfWord → HalfAddr → Nat → HalfAddr

end Sys2Proof
end

