-- ==== Sys2Proof/Machine/Construct.lean ====
section
/-! DEFINITION. Construction (40_configuration.md): latency selection, the CR0 value, the delay constants, and the checks E0 to E9 in
their order. It is the only place CORE reports an error (60_exceptions.md R371). -/

namespace Sys2Proof

/-- `LATCODE(IL) = (IL - 5) mod 16` (40_configuration.md R157), defined there for 3 to 7. -/
def latCode (il : Nat) : BitVec 4 := BitVec.ofNat 4 (il + 11)

/-- `(CR0_BASE & 0xFF07) | (LATCODE(IL) << 4) | (FIXED << 3)` (40_configuration.md R158). -/
def cr0Of (base : HalfWord) (il : Nat) (fixed : Bool) : HalfWord :=
  (base &&& 0xFF07#16) ||| ((latCode il).zeroExtend 16 <<< 4) ||| ((BitVec.ofBool fixed).zeroExtend 16 <<< 3)

/-- `CFG.CR0` (00_scope.md R8; 30_encoding.md R122). -/
def Cfg.cr0 (c : Cfg) : HalfWord := cr0Of c.cr0Base c.il c.fixed

/-- `CA_CYCLES` (30_encoding.md R135): cycles of the command-address phase. -/
def Lanes.caCycles : Lanes → Nat
  | .one => 3
  | .two => 2

/-- Lanes as a number. -/
def Lanes.count : Lanes → Nat
  | .one => 1
  | .two => 2

/-- `DW`, the NativePort data width (00_scope.md R8; 44_wide_mode.md R331). -/
def Lanes.dataWidth (l : Lanes) : Nat := 16 * l.count

/-- `BW`, the byte-enable width (00_scope.md R8; 44_wide_mode.md R331). -/
def Lanes.byteEnables (l : Lanes) : Nat := l.dataWidth / 8

/-- `SEL_DLY = max(0, TX_LATENCY + RX_LATENCY - 2)` (40_configuration.md R165). -/
def Cfg.selDly (c : Cfg) : Nat := c.txLatency + c.rxLatency - 2

/-- `FIXED_OFFSET = CA_CYCLES + SEL_DLY` (40_configuration.md R166). -/
def Cfg.fixedOffset (c : Cfg) : Nat := c.lanes.caCycles + c.selDly

/-- `Lat`: `2 * IL` (long) or `IL` (short) (41_controller.md R229). -/
def Cfg.lat (c : Cfg) (long : Bool) : Nat := if long then 2 * c.il else c.il

/-- `WLAT_LONG`, `WLAT_SHORT` (40_configuration.md R167): negative where the latency is over before the count could begin
(40_configuration.md R160, R171). -/
def Cfg.wlat (c : Cfg) (long : Bool) : Int := (c.lat long : Int) - c.fixedOffset

/-- `RLAT_LONG`, `RLAT_SHORT` (40_configuration.md R168). -/
def Cfg.rlat (c : Cfg) (long : Bool) : Int := c.wlat long + c.txLatency + c.rxLatency

/-- `ENDW_DLY = TX_LATENCY` (40_configuration.md R169). -/
def Cfg.endwDly (c : Cfg) : Nat := c.txLatency

/-- A power of two, at least 1 (40_configuration.md R153). -/
def isPowerOfTwo (n : Nat) : Bool := decide (0 < n) && (2 ^ n.log2 == n)

/-- `DIE_BIT = log2(rows) + log2(columns)` (30_encoding.md R119). -/
def DeviceProfile.dieBit (p : DeviceProfile) : Nat := p.rows.log2 + p.columns.log2

/-- Profile sanity (40_configuration.md R153). -/
def DeviceProfile.sane (p : DeviceProfile) : Bool :=
  (p.bankCount == 1 || p.bankCount == 2) && isPowerOfTwo p.rows && isPowerOfTwo p.columns
    && decide (p.dieBit ≤ 31) && decide (3 ≤ p.maxInitialLatency)

/-- `F_BUS = CLK_FREQ * LANES` (40_configuration.md R152). -/
def ConstructInputs.fBus (i : ConstructInputs) : Nat := i.clkFreq * i.lanes.count

/-- `IL` (40_configuration.md R154). -/
def ConstructInputs.il (i : ConstructInputs) : Nat := i.ilOverride.getD (i.profile.minLatency i.fBus)

/-- `FIXED` (40_configuration.md R155). -/
def ConstructInputs.fixed (i : ConstructInputs) : Bool :=
  i.fixedOverride.getD (i.profile.bankCount == 2 || i.lanes == .two)

/-- `CR0_BASE` where it is not given (40_configuration.md R151; 30_encoding.md R122). -/
def cr0BaseDefault : HalfWord := 0x8F07#16

/-- The configuration record of the inputs (40_configuration.md R173), before any check. -/
def ConstructInputs.cfg (i : ConstructInputs) : Cfg :=
  { lanes := i.lanes, nbanks := i.profile.bankCount, dieBit := i.profile.dieBit, clkFreq := i.clkFreq, txLatency := i.txLatency,
    rxLatency := i.rxLatency, il := i.il, fixed := i.fixed, cr0Base := i.cr0Base.getD cr0BaseDefault }

/-- The condition of each check (40_configuration.md R153, R159, R161). E5 to E8 are stated for `LANES = 1` and skipped with
`LANES = 2`, where E9 fires (40_configuration.md R162; 44_wide_mode.md R341). -/
def ConstructInputs.fires (i : ConstructInputs) : ConfigurationError → Bool
  | .e0Profile => !i.profile.sane
  | .e1Freq => decide (i.profile.maxClock < i.fBus)
  | .e2Range => decide (i.il < 3) || decide (i.profile.maxInitialLatency < i.il) || decide (7 < i.il)
  | .e3MinLat => decide (i.il < i.profile.minLatency i.fBus)
  | .e4FixedRequired => !i.fixed && (i.profile.bankCount == 2 || i.lanes == .two)
  | .e5PhyRoundtrip => i.lanes == .one && !i.fixed && decide (i.cfg.wlat false < 0)
  | .e6LongNegative => i.lanes == .one && decide (i.cfg.wlat true < 0)
  | .e7SampleWindow => i.lanes == .one && !i.fixed && decide (i.txLatency + i.rxLatency < 2)
  | .e8Dlycnt => i.lanes == .one && decide (255 < i.cfg.rlat true)
  | .e9Wide => i.lanes == .two

/-- The checks in the order of 40_configuration.md R162. -/
def ConfigurationError.order : List ConfigurationError :=
  [.e0Profile, .e1Freq, .e2Range, .e3MinLat, .e4FixedRequired, .e5PhyRoundtrip, .e6LongNegative, .e7SampleWindow, .e8Dlycnt,
    .e9Wide]

/-- Construction: the first check that fires is reported, else the configuration (40_configuration.md R162, R173). -/
def construct (i : ConstructInputs) : Except ConfigurationError Cfg :=
  match ConfigurationError.order.find? i.fires with
  | some e => .error e
  | none => .ok i.cfg

/-- `MINLAT_REF` (40_configuration.md R156). -/
def minLatRef (f : Nat) : Nat :=
  if f ≤ 83000000 then 3
  else if f ≤ 100000000 then 4
  else if f ≤ 133000000 then 5
  else if f ≤ 166000000 then 6
  else if f ≤ 200000000 then 7
  else 8

/-- `PROFILE_REF166` (40_configuration.md R156). -/
def profileRef166 : DeviceProfile :=
  { maxClock := 166000000, bankCount := 1, rows := 8192, columns := 512, maxInitialLatency := 6, minLatency := minLatRef }

/-- `PROFILE_REF166_DUAL` (40_configuration.md R156). -/
def profileRef166Dual : DeviceProfile := { profileRef166 with bankCount := 2 }

/-- The construction of 40_configuration.md R174 row 1, the source's first end-to-end scenario. -/
def referenceInputs : ConstructInputs :=
  { profile := profileRef166, clkFreq := 100000000, lanes := .one, txLatency := 1, rxLatency := 2, ilOverride := none,
    fixedOverride := none, cr0Base := none }

/-- The invariants of a configuration that construction accepts (40_configuration.md R153, R159, R161, R170): what the Controller's
rules rely on. -/
def Cfg.wf (c : Cfg) : Bool :=
  c.lanes == .one && (c.nbanks == 1 || c.nbanks == 2) && decide (c.dieBit ≤ 31) && decide (3 ≤ c.il) && decide (c.il ≤ 7)
    && (c.fixed || (c.nbanks == 1 && decide (c.fixedOffset ≤ c.il) && decide (2 ≤ c.txLatency + c.rxLatency)))
    && decide (c.fixedOffset ≤ 2 * c.il)

end Sys2Proof
end

