-- ==== Sys2Proof/Machine/State.lean ====
section
/-! DEFINITION. State as plain data: CORE's own fields (10_state.md R21, R23, R25), its interface signals (10_state.md R28), the
reference device ENV-REF behind the PHY (20_memory.md R101, R102), and the model's own bookkeeping of the environment; Fault and
Refusal; the reset state (10_state.md R30). -/

namespace Sys2Proof.Machine

/-- `ctl.state` (10_state.md R21), in the source's order. -/
inductive CtlState where
  | idle
  | caWord0
  | caWord1
  | caWord2
  | selectOp
  | writeDelay
  | write
  | writeReg
  | endWrite
  | readDelay
  | read
  | endRead
deriving DecidableEq, Repr

/-- The Controller's state fields (10_state.md R21). -/
structure Ctl where
  state      : CtlState
  dlycnt     : BitVec 8
  ca         : CaPacket
  autoTxn    : Bool
  cfgPending : Bool
  cfgDie     : BitVec 1
deriving DecidableEq, Repr

/-- The Crossbar's state field (10_state.md R23). -/
structure Xb where
  regSelect : Bool
deriving DecidableEq, Repr

/-- `rs.state` (10_state.md R25). -/
inductive RsState where
  | start
  | waitCmd
  | waitWrite
  | waitRead
deriving DecidableEq, Repr

/-- RegisterSpace's state fields (10_state.md R25). -/
structure Rs where
  state         : RsState
  setupDone     : Bool
  strobePending : Bool
  regValue      : HalfWord
  regNr         : BitVec 3
  regType       : BitVec 8
  dieNr         : BitVec 2
  we            : Bool
deriving DecidableEq, Repr

/-- CORE's state (45_core.md R353). -/
structure CoreState where
  ctl : Ctl
  xb  : Xb
  rs  : Rs
deriving DecidableEq, Repr

/-- What the client of a NativePort drives (20_memory.md R60 to R63; 10_state.md R28): on the data port, inputs of CORE. -/
structure PortIn where
  cmdValid   : Bool
  cmd        : Cmd
  wdataValid : Bool
  wdata      : WItem
  rdataReady : Bool
  rdataLast  : Bool
deriving DecidableEq, Repr

/-- The CSR inputs of CORE (10_state.md R28). -/
structure CsrIn where
  we    : Bool
  wdata : CsrWord
deriving DecidableEq, Repr

/-- The PHY inputs of CORE (10_state.md R28). -/
structure PhyIn where
  dqIn      : HalfWord
  rwdsIn    : Mask
  pllLocked : Bool
deriving DecidableEq, Repr

/-- The inputs of one cycle (45_core.md R353). -/
structure Inputs where
  reset : Bool
  dp    : PortIn
  csr   : CsrIn
  phy   : PhyIn
deriving DecidableEq, Repr

/-- What the Controller's side of a NativePort drives (20_memory.md R60 to R63; 10_state.md R28): on the data port, outputs of
CORE. -/
structure PortOut where
  cmdReady   : Bool
  wdataReady : Bool
  rdataValid : Bool
  rdataData  : HalfWord
deriving DecidableEq, Repr

/-- The seven PHY outputs of CORE but `phy.rst` (10_state.md R28): what goes through the PHY's transmit pipeline
(20_memory.md R92, R101). -/
structure BusOut where
  cs     : Bool
  clkEn  : Bool
  dqOe   : Bool
  dqOut  : HalfWord
  rwdsOe : Bool
  rwdsOut : Mask
deriving DecidableEq, Repr

/-- The outputs of one cycle (45_core.md R353). -/
structure Outputs where
  dp       : PortOut
  csrRdata : CsrWord
  bus      : BusOut
  rst      : Bool
deriving DecidableEq, Repr

/-- One observed cycle: its inputs and its outputs. -/
structure Obs where
  inp : Inputs
  out : Outputs
deriving DecidableEq, Repr

/-- One sample of the receive pipeline (20_memory.md R101). -/
structure BusIn where
  dqIn   : HalfWord
  rwdsIn : Mask
deriving DecidableEq, Repr

/-- ENV-REF (20_memory.md R101, R102): the PHY's two queues, the device's registers and memory, and the transaction in progress.
`mem` holds the memory arrays of both dies, byte by byte, at the keys of `byteKey` (Machine/Ops.lean); `id0`, `lockAt` and `draws`
(the coming values of the latency draw) are the scenario's `id0`, `lock_at` and `extra` (30_encoding.md R140). -/
structure Device where
  txq    : List BusOut
  rxq    : List BusIn
  lockAt : Nat
  id0    : HalfWord
  cr0a   : HalfWord
  cr0b   : HalfWord
  mem    : List Host.Cell
  slot   : Nat
  ca     : CaPacket
  extra  : Bool
  draws  : List Bool
deriving DecidableEq, Repr

/-- The machine. `core` is CORE's state and `cfg` its configuration, which no step writes; `device` is the reference environment,
when one stands behind the PHY; `sched`, `req`, `cycle` and `trace` are the model's own: the inputs of the coming cycles, the
request a client is presenting, the cycle number, and the record of the cycles gone by. -/
structure State where
  cfg    : Cfg
  core   : CoreState
  device : Option Device
  sched  : List Inputs
  req    : Option Request
  cycle  : Nat
  trace  : List Obs
deriving DecidableEq, Repr

/-- The faults. CORE has no fault at run time (60_exceptions.md R370, R372); no step answers one. -/
inductive Fault where
  /-- Construction refuses the configuration (60_exceptions.md R371). Raised by `State.powerOn` alone. Safe: the hardware does not
  exist then. -/
  | configurationError (e : ConfigurationError)
deriving DecidableEq, Repr

/-- The refusals. -/
inductive Refusal where
  /-- An instruction without a meaning yet. No arm of `exec` answers it: every instruction has its meaning. Safe. -/
  | notModelled (mnemonic : String)
deriving DecidableEq, Repr

/-- The Controller's reset values (10_state.md R30). -/
def Ctl.reset (c : Cfg) : Ctl :=
  { state := .idle, dlycnt := 0#8, ca := 0#48, autoTxn := false, cfgPending := true, cfgDie := BitVec.ofNat 1 (c.nbanks - 1) }

/-- RegisterSpace's reset values (10_state.md R30). -/
def Rs.reset (c : Cfg) : Rs :=
  { state := .start, setupDone := false, strobePending := false, regValue := c.cr0, regNr := 0#3, regType := 1#8,
    dieNr := BitVec.ofNat 2 (c.nbanks - 1), we := true }

/-- CORE's reset values (10_state.md R30). -/
def CoreState.reset (c : Cfg) : CoreState :=
  { ctl := Ctl.reset c, xb := { regSelect := true }, rs := Rs.reset c }

/-- The idle output record (20_memory.md R101). -/
def BusOut.idle : BusOut :=
  { cs := false, clkEn := false, dqOe := false, dqOut := 0#16, rwdsOe := false, rwdsOut := 0b11#2 }

/-- The silent input record (20_memory.md R101, R104). -/
def BusIn.silent : BusIn := { dqIn := 0#16, rwdsIn := 0b00#2 }

/-- ENV-REF at reset (20_memory.md R101, R102). -/
def Device.reset (c : Cfg) : Device :=
  { txq := List.replicate c.txLatency BusOut.idle, rxq := List.replicate c.rxLatency BusIn.silent, lockAt := 0,
    id0 := 0x0C81#16, cr0a := 0x8F1F#16, cr0b := 0x8F1F#16, mem := [], slot := 0, ca := 0#48, extra := false, draws := [] }

/-- The machine right after reset, for a configuration: CORE as 10_state.md R30 says, ENV-REF behind the PHY, nothing scheduled,
nothing presented, nothing observed. -/
def State.resetWith (c : Cfg) : State :=
  { cfg := c, core := CoreState.reset c, device := some (Device.reset c), sched := [], req := none, cycle := 0, trace := [] }

/-- The machine right after reset, with the configuration of 40_configuration.md R174 row 1. -/
def State.reset : State := State.resetWith referenceInputs.cfg

end Sys2Proof.Machine
end

