-- ==== Sys2Proof/Machine/Operands.lean ====
section
/-! DEFINITION. The operand forms: the command-address packet and its parts (30_encoding.md R112 to R117; 20_memory.md R75), the
register-space address (30_encoding.md R118), and the Controller's own packet (30_encoding.md R117). -/

namespace Sys2Proof.Machine

/-- `CA(c) = {!we, aspace, burst_type, addr[31:3], 13'b0, addr[2:0]}` (30_encoding.md R114). -/
def caOf (c : Cmd) : CaPacket :=
  BitVec.ofBool (!c.we) ++ BitVec.ofBool c.aspace ++ BitVec.ofBool c.burst ++ c.addr.extractLsb' 3 29 ++ 0#13
    ++ c.addr.extractLsb' 0 3

/-- `rd = ca[47]`: 1 is a read (41_controller.md R190). -/
def caRead (ca : CaPacket) : Bool := ca.getLsbD 47

/-- `rg = ca[46]`: 1 is the register space (41_controller.md R190). -/
def caReg (ca : CaPacket) : Bool := ca.getLsbD 46

/-- `ca[45]`: 1 is a linear burst (30_encoding.md R113). -/
def caLinear (ca : CaPacket) : Bool := ca.getLsbD 45

/-- `{ca[44:16], ca[2:0]}`: the half-word address of a packet (30_encoding.md R113; 20_memory.md R104). -/
def caAddr (ca : CaPacket) : HalfAddr := ca.extractLsb' 16 29 ++ ca.extractLsb' 0 3

/-- `ca[47:32]`, the half-word of slot 0 (30_encoding.md R116). -/
def caHi (ca : CaPacket) : HalfWord := ca.extractLsb' 32 16

/-- `ca[31:16]`, the half-word of slot 1 (30_encoding.md R116). -/
def caMid (ca : CaPacket) : HalfWord := ca.extractLsb' 16 16

/-- `ca[15:0]`, the half-word of slot 2 (30_encoding.md R116). -/
def caLo (ca : CaPacket) : HalfWord := ca.extractLsb' 0 16

/-- `REGADDR(die, type, nr)` (30_encoding.md R118): `die[1]` is dropped, and with one die the die number is dropped altogether. -/
def regAddr (cfg : Cfg) (die : BitVec 2) (type : BitVec 8) (nr : BitVec 3) : HalfAddr :=
  ((if cfg.nbanks = 2 then (BitVec.ofBool (die.getLsbD 0)).zeroExtend 32 else 0#32) <<< cfg.dieBit)
    ||| (type.zeroExtend 32 <<< 11) ||| nr.zeroExtend 32

/-- The command RegisterSpace issues (43_registerspace.md R291): a linear register-space access. -/
def regCmd (cfg : Cfg) (we : Bool) (die : BitVec 2) (type : BitVec 8) (nr : BitVec 3) : Cmd :=
  { we := we, aspace := true, burst := true, addr := regAddr cfg die type nr }

/-- `CA_AUTOCFG(d)` (30_encoding.md R117): a linear write to configuration register 0 of die `d`. -/
def caAutocfg (cfg : Cfg) (die : BitVec 1) : CaPacket :=
  caOf (regCmd cfg true (die.zeroExtend 2) 1#8 0#3)

end Sys2Proof.Machine
end

