-- ==== Sys2Proof/Machine/Flags.lean ====
section
/-! DEFINITION. The single-bit status values and conditions (10_state.md R24): the gate, the latency condition, `rs.busy`, the
Crossbar's lockout and selection. All are combinational (00_scope.md R13). -/

namespace Sys2Proof.Machine

/-- `G`: the gate `ctl.dlycnt == 0` (41_controller.md R190, R195). -/
def Ctl.gate (c : Ctl) : Bool := c.dlycnt == 0#8

/-- `LONG = CFG.FIXED || (phy.rwds_in != 0b00)` (41_controller.md R190). -/
def longLatency (cfg : Cfg) (phy : PhyIn) : Bool := cfg.fixed || phy.rwdsIn != 0b00#2

/-- `rs.busy` (43_registerspace.md R296). -/
def Rs.busy (r : Rs) : Bool := !(r.state == .start && r.setupDone && !r.strobePending)

/-- `xb.lockout = !rs.setup_done` (43_registerspace.md R299; 45_core.md R350). -/
def CoreState.lockout (s : CoreState) : Bool := !s.rs.setupDone

/-- `sel = xb.reg_select || xb.lockout` (42_crossbar.md R261): 1 connects the register port, 0 the data port. -/
def CoreState.sel (s : CoreState) : Bool := s.xb.regSelect || s.lockout

/-- The Controller's path in `SELECT_OP` (41_controller.md R191): the zero-latency register write. -/
def Ctl.regWritePath (c : Ctl) : Bool := !caRead c.ca && caReg c.ca

end Sys2Proof.Machine
end

