-- ==== Sys2Proof/Machine/Ops.lean ====
section
/-! DEFINITION. The named operations over memory and registers: the device's memory as byte cells in canonical form
(20_memory.md R102, R103), the CSR view and the CSR latch (30_encoding.md R126; 43_registerspace.md R302), and construction's fault
(60_exceptions.md R371). CORE has no trap entry and no return (60_exceptions.md R380, R381), so no such operation stands here. -/

namespace Sys2Proof.Machine

/-- The canonical form: addresses strictly rising. An unlisted address reads as no value, so no entry can equal it. -/
def memWf : List Host.Cell → Bool
  | [] => true
  | [_] => true
  | a :: b :: rest => decide (a.1 < b.1) && memWf (b :: rest)

/-- The byte at a key, or no value where nothing has been written (20_memory.md R102). -/
def memGet : List Host.Cell → Nat → Option Byte
  | [], _ => none
  | c :: rest, k => if c.1 = k then some c.2 else memGet rest k

/-- Write one byte, keeping the canonical form. -/
def memSet : List Host.Cell → Nat → Byte → List Host.Cell
  | [], k, v => [(k, v)]
  | c :: rest, k, v =>
    if k < c.1 then (k, v) :: c :: rest
    else if k = c.1 then (k, v) :: rest
    else c :: memSet rest k v

/-- The key of a byte of the memory arrays: die, then half-word address, then the byte within the half-word, bits 15:8 first
(20_memory.md R76). `low` is 1 for bits 7:0. -/
def byteKey (die : Bool) (ha : HalfAddr) (low : Bool) : Nat :=
  ((if die then 2 ^ 32 else 0) + ha.toNat) * 2 + (if low then 1 else 0)

/-- `DevRead(mem, d, ha)` (20_memory.md R103) in cycle `n`: a byte nothing has written is any value
(93_implementation_defined.md U10). -/
def devReadMem (mem : List Host.Cell) (n : Nat) (die : Bool) (ha : HalfAddr) : HalfWord :=
  (memGet mem (byteKey die ha false)).getD (Config.unwrittenByte n (byteKey die ha false))
    ++ (memGet mem (byteKey die ha true)).getD (Config.unwrittenByte n (byteKey die ha true))

/-- `DevWrite(mem, d, ha, v, mask)` (20_memory.md R103): the enabled bytes are replaced; a byte of a never-written half-word that is
not written becomes 0; with no byte enabled nothing is written. -/
def devWriteMem (mem : List Host.Cell) (die : Bool) (ha : HalfAddr) (v : HalfWord) (mask : Mask) : List Host.Cell :=
  if mask = 0b00#2 then mem
  else
    let hi := if mask.getLsbD 1 then v.extractLsb' 8 8 else (memGet mem (byteKey die ha false)).getD 0#8
    let lo := if mask.getLsbD 0 then v.extractLsb' 0 8 else (memGet mem (byteKey die ha true)).getD 0#8
    memSet (memSet mem (byteKey die ha false) hi) (byteKey die ha true) lo

/-- `csr.rdata = {busy, 0, we, die_nr, reg_type, reg_nr, reg_value}` (43_registerspace.md R310; 30_encoding.md R126). -/
def Rs.csrRdata (r : Rs) : CsrWord := csrWordOf r.busy false r.we r.dieNr r.regType r.regNr r.regValue

/-- The fields a CSR write latches, and the strobe it leaves pending (43_registerspace.md R302). Bit 31 is ignored. -/
def Rs.latch (r : Rs) (w : CsrWord) : Rs :=
  { r with
    regValue := w.extractLsb' 0 16
    regNr := w.extractLsb' 16 3
    regType := w.extractLsb' 19 8
    dieNr := w.extractLsb' 27 2
    we := w.getLsbD 29
    strobePending := r.strobePending || w.getLsbD 30 }

/-- Construction and reset: the machine, or the fault that no CORE exists (40_configuration.md R162; 60_exceptions.md R371). -/
def State.powerOn (i : ConstructInputs) : Host.Outcome State Fault Refusal :=
  match construct i with
  | .ok cfg => .next (State.resetWith cfg)
  | .error e => .fault (.configurationError e)

end Sys2Proof.Machine
end

