-- ==== Sys2Proof/Machine/Controller.lean ====
section
/-! DEFINITION. The Controller (41_controller.md): its port outputs, its bus outputs (the table of R226), and its tick (R195 to
R222). -/

namespace Sys2Proof.Machine

/-- The Controller's side of `mp` (41_controller.md R192, R226). Port outputs are offered only when `G = 1` (R195). -/
def Ctl.portOut (c : Ctl) (phy : PhyIn) : PortOut :=
  { cmdReady := c.state == .idle && c.gate && phy.pllLocked && !c.cfgPending
    wdataReady :=
      match c.state with
      | .selectOp => c.gate && c.regWritePath && !c.autoTxn
      | .write => c.gate
      | .writeReg => c.gate
      | _ => false
    rdataValid := c.state == .read && c.gate && phy.rwdsIn.getLsbD 1
    rdataData := phy.dqIn }

/-- A slot with the data lanes driven and RWDS released (41_controller.md R201, R204). -/
def BusOut.drive (v : HalfWord) : BusOut :=
  { cs := true, clkEn := true, dqOe := true, dqOut := v, rwdsOe := false, rwdsOut := 0b11#2 }

/-- A cycle of a register write: the offered word with the clock on, or the clock stopped (41_controller.md R205, R212). -/
def BusOut.regWord (mp : PortIn) : BusOut :=
  { cs := true, clkEn := mp.wdataValid, dqOe := true, dqOut := if mp.wdataValid then mp.wdata.data else 0#16, rwdsOe := false,
    rwdsOut := 0b11#2 }

/-- A data cycle of a memory write: the offered word with RWDS the inverted mask, or the clock stopped (41_controller.md R210). -/
def BusOut.memWord (mp : PortIn) : BusOut :=
  { cs := true, clkEn := mp.wdataValid, dqOe := true, dqOut := if mp.wdataValid then mp.wdata.data else 0#16, rwdsOe := true,
    rwdsOut := if mp.wdataValid then ~~~mp.wdata.we else 0b11#2 }

/-- `END_WRITE`: clock stopped, RWDS parked high (41_controller.md R214). -/
def BusOut.park : BusOut :=
  { cs := true, clkEn := false, dqOe := true, dqOut := 0#16, rwdsOe := true, rwdsOut := 0b11#2 }

/-- A slot left to the device, the clock running (41_controller.md R216, R218). -/
def BusOut.listen : BusOut :=
  { cs := true, clkEn := true, dqOe := false, dqOut := 0#16, rwdsOe := false, rwdsOut := 0b11#2 }

/-- The output multiplexer (41_controller.md R226). -/
def Ctl.bus (cfg : Cfg) (c : Ctl) (mp : PortIn) : BusOut :=
  match c.state with
  | .idle => BusOut.idle
  | .caWord0 => BusOut.drive (caHi c.ca)
  | .caWord1 => BusOut.drive (caMid c.ca)
  | .caWord2 => BusOut.drive (caLo c.ca)
  | .selectOp =>
    if c.regWritePath then (if c.autoTxn then BusOut.drive cfg.cr0 else BusOut.regWord mp) else BusOut.drive 0#16
  | .writeDelay => BusOut.drive 0#16
  | .write => if c.gate then BusOut.memWord mp else BusOut.drive 0#16
  | .writeReg => BusOut.regWord mp
  | .endWrite => BusOut.park
  | .readDelay => BusOut.listen
  | .read => BusOut.listen
  | .endRead => BusOut.idle

/-- Enter a state with a counter load (41_controller.md R195). -/
def Ctl.enter (c : Ctl) (st : CtlState) (load : Nat) : Ctl := { c with state := st, dlycnt := BitVec.ofNat 8 load }

/-- Launch a transaction in `IDLE` (41_controller.md R200). -/
def Ctl.launch (c : Ctl) (ca : CaPacket) (auto : Bool) : Ctl := { c with state := .caWord0, ca := ca, autoTxn := auto }

/-- `IDLE` at the tick (41_controller.md R200). -/
def Ctl.tickIdle (cfg : Cfg) (c : Ctl) (mp : PortIn) (phy : PhyIn) : Ctl :=
  if phy.pllLocked then
    if c.cfgPending then c.launch (caAutocfg cfg c.cfgDie) true
    else if mp.cmdValid then c.launch (caOf mp.cmd) false
    else c
  else c

/-- `SELECT_OP` at the tick (41_controller.md R204, R205, R206). -/
def Ctl.tickSelectOp (cfg : Cfg) (c : Ctl) (mp : PortIn) : Ctl :=
  if caRead c.ca then c.enter .readDelay cfg.selDly
  else if caReg c.ca then
    if c.autoTxn then c.enter .endWrite cfg.endwDly
    else if mp.wdataValid then
      if mp.wdata.last then c.enter .endWrite cfg.endwDly else { c with state := .writeReg }
    else c
  else c.enter .writeDelay cfg.selDly

/-- `WRITE` and `WRITE_REG` at the tick (41_controller.md R210, R212): stay until the word with `last` is transferred. -/
def Ctl.tickStream (cfg : Cfg) (c : Ctl) (mp : PortIn) : Ctl :=
  if mp.wdataValid && mp.wdata.last then c.enter .endWrite cfg.endwDly else c

/-- `READ` at the tick (41_controller.md R218): stay until a word is transferred with the consumer's `last`. -/
def Ctl.tickRead (c : Ctl) (mp : PortIn) (phy : PhyIn) : Ctl :=
  if (c.portOut phy).rdataValid && mp.rdataReady && mp.rdataLast then { c with state := .endRead } else c

/-- `END_READ` at the tick (41_controller.md R222). -/
def Ctl.tickEndRead (c : Ctl) : Ctl :=
  if c.autoTxn then
    if c.cfgDie = 0#1 then { c with state := .idle, cfgPending := false }
    else { c with state := .idle, cfgDie := c.cfgDie - 1#1 }
  else { c with state := .idle }

/-- The Controller's tick with the gate open: the "at the tick" part of the current state's rule (41_controller.md R200 to R222). -/
def Ctl.tickOpen (cfg : Cfg) (c : Ctl) (mp : PortIn) (phy : PhyIn) : Ctl :=
  match c.state with
  | .idle => c.tickIdle cfg mp phy
  | .caWord0 => { c with state := .caWord1 }
  | .caWord1 => { c with state := .caWord2 }
  | .caWord2 => { c with state := .selectOp }
  | .selectOp => c.tickSelectOp cfg mp
  | .writeDelay => c.enter .write (cfg.wlat (longLatency cfg phy)).toNat
  | .write => c.tickStream cfg mp
  | .writeReg => c.tickStream cfg mp
  | .endWrite => { c with state := .endRead }
  | .readDelay => c.enter .read (cfg.rlat (longLatency cfg phy)).toNat
  | .read => c.tickRead mp phy
  | .endRead => c.tickEndRead

/-- The Controller's tick (41_controller.md R195): count down, or follow the current state's rule. -/
def Ctl.tick (cfg : Cfg) (c : Ctl) (mp : PortIn) (phy : PhyIn) : Ctl :=
  if c.gate then c.tickOpen cfg mp phy else { c with dlycnt := c.dlycnt - 1#8 }

end Sys2Proof.Machine
end

