-- ==== Sys2Proof/Machine/Crossbar.lean ====
section
/-! DEFINITION. The Crossbar (42_crossbar.md): a switch between the data port, the register port and the Controller's port, and its
priority bit. `sel = true` connects the register port. -/

namespace Sys2Proof.Machine

/-- What reaches the Controller's port (42_crossbar.md R263 to R265). A pending register command masks the data port's command. -/
def xbForward (sel : Bool) (dp rp : PortIn) : PortIn :=
  if sel then rp else { dp with cmdValid := dp.cmdValid && !rp.cmdValid }

/-- What the register port sees (42_crossbar.md R263 to R265). -/
def xbToReg (sel : Bool) (mp : PortOut) : PortOut :=
  { cmdReady := sel && mp.cmdReady, wdataReady := sel && mp.wdataReady, rdataValid := sel && mp.rdataValid,
    rdataData := mp.rdataData }

/-- What the data port sees (42_crossbar.md R263 to R265). -/
def xbToData (sel : Bool) (rp : PortIn) (mp : PortOut) : PortOut :=
  { cmdReady := !sel && mp.cmdReady && !rp.cmdValid, wdataReady := !sel && mp.wdataReady, rdataValid := !sel && mp.rdataValid,
    rdataData := mp.rdataData }

/-- The priority bit at the tick (42_crossbar.md R270): forced to 1 by lockout, else evaluated in boundary cycles. -/
def Xb.tick (x : Xb) (lockout mpCmdReady rpCmdValid : Bool) : Xb :=
  if lockout then { regSelect := true }
  else if mpCmdReady then
    if x.regSelect && !rpCmdValid then { regSelect := false }
    else if !x.regSelect && rpCmdValid then { regSelect := true }
    else x
  else x

end Sys2Proof.Machine
end

