-- ==== Sys2Proof/Machine/RegisterSpace.lean ====
section
/-! DEFINITION. RegisterSpace (43_registerspace.md): its port outputs (R291) and its tick (R302 to R308). -/

namespace Sys2Proof.Machine

/-- What RegisterSpace drives on `rp` (43_registerspace.md R291): functions of its state alone. -/
def Rs.port (cfg : Cfg) (r : Rs) : PortIn :=
  { cmdValid := r.state == .waitCmd
    cmd := regCmd cfg r.we r.dieNr r.regType r.regNr
    wdataValid := r.state == .waitWrite
    wdata := { data := r.regValue, we := 0b11#2, last := true }
    rdataReady := r.state == .waitRead
    rdataLast := true }

/-- The end of a register write (43_registerspace.md R306): during set-up, count the die down or finish. -/
def Rs.wordTaken (r : Rs) : Rs :=
  if r.setupDone then { r with state := .start }
  else if r.dieNr = 0#2 then { r with state := .start, setupDone := true }
  else { r with state := .start, dieNr := r.dieNr - 1#2 }

/-- The state machine at the tick (43_registerspace.md R304, R305, R306, R308). -/
def Rs.advance (r : Rs) (rp : PortOut) : Rs :=
  match r.state with
  | .start => if !r.setupDone || r.strobePending then { r with state := .waitCmd, strobePending := false } else r
  | .waitCmd => if rp.cmdReady then { r with state := if r.we then .waitWrite else .waitRead } else r
  | .waitWrite => if rp.wdataReady then r.wordTaken else r
  | .waitRead => if rp.rdataValid then { r with regValue := rp.rdataData, state := .start } else r

/-- RegisterSpace's tick: its state machine, and a CSR write when it is not busy (43_registerspace.md R302). The two never write the
same field in one cycle (60_exceptions.md R379 (f)). -/
def Rs.tick (r : Rs) (rp : PortOut) (csr : CsrIn) : Rs :=
  if csr.we && !r.busy then (r.advance rp).latch csr.wdata else r.advance rp

end Sys2Proof.Machine
end

