-- ==== Sys2Proof/Machine/Composition.lean ====
section
/-! DEFINITION. CORE as a whole (45_core.md): wiring, the signals of one cycle in the order of R351, the outputs, and the tick of
R352 to R354. -/

namespace Sys2Proof.Machine

/-- The Controller's side of `mp` in a cycle (45_core.md R351 step 1). -/
def CoreState.mpOut (s : CoreState) (i : Inputs) : PortOut := s.ctl.portOut i.phy

/-- The client's side of `mp` in a cycle (45_core.md R351 step 3). -/
def CoreState.mpIn (cfg : Cfg) (s : CoreState) (i : Inputs) : PortIn := xbForward s.sel i.dp (s.rs.port cfg)

/-- The Controller's side of `rp`, as RegisterSpace sees it (45_core.md R351 step 3). -/
def CoreState.rpOut (s : CoreState) (i : Inputs) : PortOut := xbToReg s.sel (s.mpOut i)

/-- The Controller's side of `dp`, as the data client sees it (45_core.md R351 step 3). -/
def CoreState.dpOut (cfg : Cfg) (s : CoreState) (i : Inputs) : PortOut := xbToData s.sel (s.rs.port cfg) (s.mpOut i)

/-- The outputs of a cycle (45_core.md R351, R353). `phy.rst = !phy.pll_locked` (41_controller.md R192). -/
def CoreState.outputs (cfg : Cfg) (s : CoreState) (i : Inputs) : Outputs :=
  { dp := s.dpOut cfg i, csrRdata := s.rs.csrRdata, bus := s.ctl.bus cfg (s.mpIn cfg i), rst := !i.phy.pllLocked }

/-- A command is transferred on `mp` in the cycle (20_memory.md R61). -/
def CoreState.cmdTransfer (cfg : Cfg) (s : CoreState) (i : Inputs) : Bool := (s.mpIn cfg i).cmdValid && (s.mpOut i).cmdReady

/-- The tick without reset (45_core.md R352): the three components at once, each from the cycle just ended. -/
def CoreState.advance (cfg : Cfg) (s : CoreState) (i : Inputs) : CoreState :=
  { ctl := s.ctl.tick cfg (s.mpIn cfg i) i.phy
    xb := s.xb.tick s.lockout (s.mpOut i).cmdReady (s.rs.port cfg).cmdValid
    rs := s.rs.tick (s.rpOut i) i.csr }

/-- The tick (45_core.md R353, R354): `reset` has priority over everything. -/
def CoreState.tick (cfg : Cfg) (s : CoreState) (i : Inputs) : CoreState :=
  if i.reset then CoreState.reset cfg else s.advance cfg i

end Sys2Proof.Machine
end

