-- ==== Sys2Proof/Machine/EnvRef.lean ====
section
/-! DEFINITION. The reference environment ENV-REF (20_memory.md R100 to R105): the PHY's two delay queues and a HyperRAM-like device.
It is no part of CORE; a state may have it behind the PHY or not. -/

namespace Sys2Proof.Machine

/-- The latency codes of 40_configuration.md R157 read backwards (20_memory.md R102); another code is "outside ENV-REF" and gives any
latency. -/
def latencyOfCode (code : BitVec 4) : Nat :=
  if code = 0b1110#4 then 3
  else if code = 0b1111#4 then 4
  else if code = 0b0000#4 then 5
  else if code = 0b0001#4 then 6
  else if code = 0b0010#4 then 7
  else Config.latencyOfOtherCode code

/-- `d`: the die the packet captured so far selects (20_memory.md R104). -/
def Device.die (cfg : Cfg) (d : Device) : Bool := cfg.nbanks == 2 && d.ca.getLsbD (cfg.dieBit + 13)

/-- `dev.cr0[d]` (20_memory.md R102). -/
def Device.cr0 (d : Device) (die : Bool) : HalfWord := if die then d.cr0b else d.cr0a

/-- `ha`: the packet's half-word address without the die bit (20_memory.md R103, R104). -/
def Device.ha (cfg : Cfg) (d : Device) : HalfAddr :=
  if cfg.nbanks = 2 then caAddr d.ca &&& ~~~(1#32 <<< cfg.dieBit) else caAddr d.ca

/-- `two`: this transaction uses the long latency (20_memory.md R104). -/
def Device.two (cfg : Cfg) (d : Device) : Bool := (d.cr0 (d.die cfg)).getLsbD 3 || d.extra

/-- `L`: the latency of the transaction (20_memory.md R104). -/
def Device.latency (cfg : Cfg) (d : Device) : Nat :=
  (if d.two cfg then 2 else 1) * latencyOfCode ((d.cr0 (d.die cfg)).extractLsb' 4 4)

/-- `DevRead(reg, d, ha)` (20_memory.md R103). -/
def Device.readReg (d : Device) (die : Bool) (ha : HalfAddr) : HalfWord :=
  if ha = 0x000#32 then d.id0 else if ha = 0x800#32 then d.cr0 die else 0#16

/-- `DevWrite(reg, d, ha, v, mask)` (20_memory.md R103). -/
def Device.writeReg (d : Device) (die : Bool) (ha : HalfAddr) (v : HalfWord) : Device :=
  if ha = 0x800#32 then (if die then { d with cr0b := v } else { d with cr0a := v }) else d

/-- `DevRead(mem, d, ha)` and `DevRead(reg, d, ha)` by the space of the packet (20_memory.md R103, R104), in cycle `n`. -/
def Device.readAt (cfg : Cfg) (n : Nat) (d : Device) (ha : HalfAddr) : HalfWord :=
  if caReg d.ca then d.readReg (d.die cfg) ha else devReadMem d.mem n (d.die cfg) ha

/-- What the device samples on the data lanes: CORE's value while CORE drives them, else any value (20_memory.md R95). -/
def BusOut.sampledDq (b : BusOut) (n : Nat) : HalfWord := if b.dqOe then b.dqOut else Config.undrivenDq n

/-- What the device samples on RWDS: CORE's value while CORE drives it, else any value (20_memory.md R95). -/
def BusOut.sampledRwds (b : BusOut) (n : Nat) : Mask := if b.rwdsOe then b.rwdsOut else Config.undrivenRwds n

/-- `dev.ca[47 - 16*s : 32 - 16*s] <- v` for slot `s` of 0 to 2 (20_memory.md R104). -/
def captureCa (ca : CaPacket) (s : Nat) (v : HalfWord) : CaPacket :=
  (ca &&& ~~~(0xFFFF#48 <<< (32 - 16 * s))) ||| (v.zeroExtend 48 <<< (32 - 16 * s))

/-- The draw of `dev.extra` in the first slot of a transaction (20_memory.md R104): the next of `draws`, else any value. -/
def Device.draw (n : Nat) (d : Device) (b : BusOut) : Device :=
  if d.slot = 0 ∧ b.clkEn = true then
    match d.draws with
    | e :: rest => { d with extra := e, draws := rest }
    | [] => { d with extra := Config.latencyDraw n }
  else d

/-- The half-word address of word `i` of a burst: `ha + i` (20_memory.md R104). Only linear bursts are defined (R105): of a wrapped
burst the first word is at `ha`, and the address of a later word is any value. -/
def Device.wordAddr (cfg : Cfg) (d : Device) (i : Nat) : HalfAddr :=
  if caLinear d.ca = true ∨ i = 0 then d.ha cfg + BitVec.ofNat 32 i else Config.wrappedAddr (d.cr0 (d.die cfg)) (d.ha cfg) i

/-- The half-word address of the current data slot of a burst, `s - (2 + L)` words after the first (20_memory.md R104). -/
def Device.dataAddr (cfg : Cfg) (d : Device) : HalfAddr := d.wordAddr cfg (d.slot - (2 + d.latency cfg))

/-- A slot's effect on the device (20_memory.md R104): capture of the packet, a register write in slot 3, a memory write from slot
`2 + L`. -/
def Device.takeSlot (cfg : Cfg) (n : Nat) (d : Device) (b : BusOut) : Device :=
  if d.slot ≤ 2 then { d with ca := captureCa d.ca d.slot (b.sampledDq n) }
  else if caRead d.ca then d
  else if caReg d.ca then
    if d.slot = 3 then d.writeReg (d.die cfg) (d.ha cfg) (b.sampledDq n) else d
  else if 2 + d.latency cfg ≤ d.slot then
    { d with mem := devWriteMem d.mem (d.die cfg) (d.dataAddr cfg) (b.sampledDq n) (~~~(b.sampledRwds n)) }
  else d

/-- What the device puts on the bus in a cycle (20_memory.md R104): the latency indicator through slot 2, a read half-word with its
strobe from slot `2 + L`, else nothing. -/
def Device.answer (cfg : Cfg) (n : Nat) (d : Device) (b : BusOut) : BusIn :=
  if d.slot ≤ 2 then { dqIn := 0#16, rwdsIn := if d.two cfg then 0b11#2 else 0b00#2 }
  else if b.clkEn = true ∧ caRead d.ca = true ∧ 2 + d.latency cfg ≤ d.slot then
    { dqIn := d.readAt cfg n (d.dataAddr cfg), rwdsIn := 0b10#2 }
  else BusIn.silent

/-- `BusCycle(B)` (20_memory.md R104), in cycle `n`. -/
def Device.busCycle (cfg : Cfg) (n : Nat) (d : Device) (b : BusOut) : Device × BusIn :=
  if b.cs then
    let d1 := d.draw n b
    let answer := d1.answer cfg n b
    if b.clkEn then ({ d1.takeSlot cfg n b with slot := d.slot + 1 }, answer) else (d1, answer)
  else ({ d with slot := 0, ca := 0#48 }, BusIn.silent)

/-- The record that leaves the transmit queue when `out` enters it (20_memory.md R101). -/
def Device.onBus (d : Device) (out : BusOut) : BusOut := d.txq.headD out

/-- ENV-REF's tick (20_memory.md R101): CORE's outputs enter the transmit queue, the record at its head goes through `BusCycle`, and
the answer enters the receive queue. -/
def Device.tick (cfg : Cfg) (n : Nat) (d : Device) (out : BusOut) : Device :=
  let r := d.busCycle cfg n (d.onBus out)
  { r.1 with txq := (d.txq ++ [out]).tail, rxq := (d.rxq ++ [r.2]).tail }

/-- What CORE sees of the PHY in cycle `n` (20_memory.md R101): the head of the receive queue. ENV-REF requires `RX_LATENCY >= 1`
(R100); with an empty queue the samples are any value. -/
def Device.phyIn (n : Nat) (d : Device) : PhyIn :=
  match d.rxq with
  | r :: _ => { dqIn := r.dqIn, rwdsIn := r.rwdsIn, pllLocked := decide (d.lockAt ≤ n) }
  | [] => { dqIn := Config.freeDqIn n, rwdsIn := Config.freeRwdsIn n, pllLocked := decide (d.lockAt ≤ n) }

end Sys2Proof.Machine
end

