-- ==== Sys2Proof/Machine/Clock.lean ====
section
/-! DEFINITION. One cycle of the machine, and the run of an instruction as the cycles it takes. The inputs of a cycle are the
schedule's, with the request a client presents laid over them (30_encoding.md R141, phase `CMD`: held until the transfer). -/

namespace Sys2Proof.Machine

/-- The data client presents nothing. -/
def PortIn.quiet : PortIn :=
  { cmdValid := false, cmd := { we := false, aspace := false, burst := false, addr := 0#32 }, wdataValid := false,
    wdata := { data := 0#16, we := 0b00#2, last := false }, rdataReady := false, rdataLast := false }

/-- No CSR write is presented. -/
def CsrIn.quiet : CsrIn := { we := false, wdata := 0#32 }

/-- PHY inputs of a cycle that nothing determines: any value. -/
def PhyIn.free (n : Nat) : PhyIn :=
  { dqIn := Config.freeDqIn n, rwdsIn := Config.freeRwdsIn n, pllLocked := Config.freePllLocked n }

/-- The scheduled inputs of the coming cycle; beyond the schedule the clients present nothing, reset is not asserted and the PHY's
inputs are any value. -/
def State.scheduled (s : State) : Inputs :=
  match s.sched with
  | i :: _ => i
  | [] => { reset := false, dp := PortIn.quiet, csr := CsrIn.quiet, phy := PhyIn.free s.cycle }

/-- The PHY's inputs: ENV-REF's where it stands behind the PHY (20_memory.md R101), else the schedule's. -/
def State.phyIn (s : State) : PhyIn :=
  match s.device with
  | some d => d.phyIn s.cycle
  | none => s.scheduled.phy

/-- Lay a presented request over a client's inputs: `dp.cmd` for a command, the CSR write for a CSR word (43_registerspace.md R300);
a CSR read presents nothing. -/
def Inputs.present (i : Inputs) : Option Request → Inputs
  | some (.cmd w) => { i with dp := { i.dp with cmdValid := true, cmd := Cmd.ofWord w } }
  | some (.csrWrite w) => { i with csr := { we := true, wdata := w } }
  | some .csrRead => i
  | none => i

/-- The inputs of the coming cycle. -/
def State.inputs (s : State) : Inputs := { s.scheduled with phy := s.phyIn }.present s.req

/-- The outputs of the coming cycle. -/
def State.outputs (s : State) : Outputs := s.core.outputs s.cfg s.inputs

/-- What stays presented after a cycle: a command until it is transferred (20_memory.md R61); a CSR access takes one cycle
(43_registerspace.md R300). -/
def State.reqAfter (s : State) : Option Request :=
  match s.req with
  | some (.cmd w) => if s.outputs.dp.cmdReady then none else some (.cmd w)
  | some (.csrWrite _) => none
  | some .csrRead => none
  | none => none

/-- One cycle: CORE's tick (45_core.md R353) and the environment's. -/
def State.clock (s : State) : State :=
  { cfg := s.cfg
    core := s.core.tick s.cfg s.inputs
    device := s.device.map fun d => d.tick s.cfg s.cycle s.outputs.bus
    sched := s.sched.tail
    req := s.reqAfter
    cycle := s.cycle + 1
    trace := s.trace ++ [{ inp := s.inputs, out := s.outputs }] }

/-- Cycles while a condition holds, at most `n`. -/
def runWhile (busy : State → Bool) : Nat → State → State
  | 0, s => s
  | n + 1, s => if busy s then runWhile busy n s.clock else s

/-- The cycles one instruction may take before the machine stops to look again: those the schedule covers, and at least one. An
instruction that is not over by then goes on in the following steps (60_exceptions.md R375: a wait is no fault). -/
def State.horizon (s : State) : Nat := max 1 s.sched.length

/-- A data-port transaction is not over: its command is not transferred, or the Controller is not back in `IDLE`. -/
def State.transacting (s : State) : Bool := s.req.isSome || s.core.ctl.state != .idle

/-- A CSR-requested register access is not over: RegisterSpace is busy after set-up (43_registerspace.md R317, R318). -/
def State.accessing (s : State) : Bool := s.core.rs.busy && s.core.rs.setupDone

/-- A data-port transaction: the client presents the command, and the machine runs until the Controller is back in `IDLE`
(41_controller.md R235 to R238). -/
def State.transact (s : State) (c : Cmd) : State :=
  runWhile State.transacting s.horizon { s with req := some (.cmd c.toWord) }

/-- A CSR write: the CSR master presents the word for one cycle (43_registerspace.md R300, R302). -/
def State.csrWrite (s : State) (w : CsrWord) : State := State.clock { s with req := some (.csrWrite w) }

/-- A CSR write with strobe, followed to the end of the access it starts: `busy` false, true, false (43_registerspace.md R317). A
write while busy is dropped and starts nothing (R302). -/
def State.csrGo (s : State) (w : CsrWord) : State :=
  if s.core.rs.busy then s.csrWrite w else runWhile State.accessing (s.horizon - 1) (s.csrWrite w)

end Sys2Proof.Machine
end

