-- ==== Sys2Proof/Machine/Autonomous.lean ====
section
/-! DEFINITION. The two autonomous sequences (41_controller.md R240; 43_registerspace.md R320). No client presents them: they run
because CORE's own state says so. -/

namespace Sys2Proof.Machine

/-- `CTL_AUTOCFG` (41_controller.md R240): the Controller's CR0 writes, until all dies are done. -/
def execCtlAutocfg (s : State) : Host.Outcome State Fault Refusal :=
  .next (runWhile (fun t => t.core.ctl.cfgPending) s.horizon s)

/-- `RS_SETUP` (43_registerspace.md R320): RegisterSpace's start-up writes, until set-up is done. -/
def execRsSetup (s : State) : Host.Outcome State Fault Refusal :=
  .next (runWhile (fun t => !t.core.rs.setupDone) s.horizon s)

end Sys2Proof.Machine
end

