-- ==== Sys2Proof/Machine/Csr.lean ====
section
/-! DEFINITION. The CSR operations (43_registerspace.md R316 to R319). -/

namespace Sys2Proof.Machine

/-- `CSR_LATCH` (43_registerspace.md R316): the word with `strobe` 0. -/
def execCsrLatch (we : Bool) (die : BitVec 2) (type : BitVec 8) (nr : BitVec 3) (value : HalfWord) (s : State) :
    Host.Outcome State Fault Refusal :=
  .next (s.csrWrite (csrWordOf false false we die type nr value))

/-- `CSR_GO_WR` (43_registerspace.md R317): the word with `strobe` and `we` set. -/
def execCsrGoWr (die : BitVec 2) (type : BitVec 8) (nr : BitVec 3) (value : HalfWord) (s : State) :
    Host.Outcome State Fault Refusal :=
  .next (s.csrGo (csrWordOf false true true die type nr value))

/-- `CSR_GO_RD` (43_registerspace.md R318): the word with `strobe` set and `we` clear. -/
def execCsrGoRd (die : BitVec 2) (type : BitVec 8) (nr : BitVec 3) (value : HalfWord) (s : State) :
    Host.Outcome State Fault Refusal :=
  .next (s.csrGo (csrWordOf false true false die type nr value))

/-- `CSR_READ` (43_registerspace.md R319): the CSR master samples `csr.rdata` in the cycle; nothing is presented and nothing else
changes than the cycle changes by itself. The value read is `csrRdata` of the cycle's record. -/
def execCsrRead (s : State) : Host.Outcome State Fault Refusal :=
  .next (State.clock { s with req := some .csrRead })

end Sys2Proof.Machine
end

