-- ==== Sys2Proof/Machine/NativePort.lean ====
section
/-! DEFINITION. The four NativePort transactions (41_controller.md R235 to R238). -/

namespace Sys2Proof.Machine

/-- `MEM_RD` (41_controller.md R236). -/
def execMemRd (burst : Bool) (addr : HalfAddr) (s : State) : Host.Outcome State Fault Refusal :=
  .next (s.transact { we := false, aspace := false, burst := burst, addr := addr })

/-- `MEM_WR` (41_controller.md R235). -/
def execMemWr (burst : Bool) (addr : HalfAddr) (s : State) : Host.Outcome State Fault Refusal :=
  .next (s.transact { we := true, aspace := false, burst := burst, addr := addr })

/-- `REG_RD` (41_controller.md R238). -/
def execRegRd (burst : Bool) (addr : HalfAddr) (s : State) : Host.Outcome State Fault Refusal :=
  .next (s.transact { we := false, aspace := true, burst := burst, addr := addr })

/-- `REG_WR` (41_controller.md R237). -/
def execRegWr (burst : Bool) (addr : HalfAddr) (s : State) : Host.Outcome State Fault Refusal :=
  .next (s.transact { we := true, aspace := true, burst := burst, addr := addr })

end Sys2Proof.Machine
end

