-- ==== Sys2Proof/Machine/Dispatch.lean ====
section
/-! DEFINITION. One arm per instruction. -/

namespace Sys2Proof.Machine

def exec (i : Instr) (s : State) : Host.Outcome State Fault Refusal :=
  match i with
  | .memRd burst addr => Sys2Proof.Machine.execMemRd burst addr s
  | .memWr burst addr => Sys2Proof.Machine.execMemWr burst addr s
  | .regRd burst addr => Sys2Proof.Machine.execRegRd burst addr s
  | .regWr burst addr => Sys2Proof.Machine.execRegWr burst addr s
  | .ctlAutocfg => Sys2Proof.Machine.execCtlAutocfg s
  | .csrLatch we die type nr value => Sys2Proof.Machine.execCsrLatch we die type nr value s
  | .csrGoWr die type nr value => Sys2Proof.Machine.execCsrGoWr die type nr value s
  | .csrGoRd die type nr value => Sys2Proof.Machine.execCsrGoRd die type nr value s
  | .csrRead => Sys2Proof.Machine.execCsrRead s
  | .rsSetup => Sys2Proof.Machine.execRsSetup s

end Sys2Proof.Machine
end

