-- ==== Sys2Proof/Machine/Fetch.lean ====
section
/-! DEFINITION. Which instruction the machine runs next, and how a request is placed before it. CORE has no program counter and
fetches nothing (10_state.md R22): what runs next is decided by its own state, then by what a client presents. -/

namespace Sys2Proof.Machine

/-- The next instruction: the Controller's configuration writes while they are pending (41_controller.md R200, R240), then
RegisterSpace's start-up writes (43_registerspace.md R320), then what a client presents. -/
def State.fetch (s : State) : Option Instr :=
  if s.core.ctl.cfgPending then some .ctlAutocfg
  else if s.core.rs.setupDone then s.req.map Request.decode
  else some .rsSetup

/-- CORE after its start-up and hand-over, nothing in flight (70_reset_and_hazards.md R404, R405, R408). -/
def CoreState.started (s : CoreState) : CoreState :=
  { ctl := { s.ctl with state := .idle, dlycnt := 0#8, autoTxn := false, cfgPending := false, cfgDie := 0#1 }
    xb := { regSelect := false }
    rs := { s.rs with state := .start, setupDone := true, strobePending := false, dieNr := 0#2 } }

/-- The client's part of a placed instruction: the operand word, one `wdata` item of zeros with `last`, and a consumer that takes one
word; a PHY that is locked and strobes. -/
def operandCycle : Inputs :=
  { reset := false
    dp := { PortIn.quiet with
            wdataValid := true, wdata := { data := 0#16, we := 0b00#2, last := true }, rdataReady := true, rdataLast := true }
    csr := CsrIn.quiet
    phy := { dqIn := 0#16, rwdsIn := 0b10#2, pllLocked := true } }

/-- The cycles for which the client of a placed instruction holds its operand word. -/
def operandCycles : Nat := 64

/-- The machine with a request placed where it looks next: start-up over, the request presented, its operand word offered. -/
def State.placeRequest (s : State) (r : Request) : State :=
  { s with core := s.core.started, req := some r, sched := List.replicate operandCycles operandCycle }

/-- The machine with the instruction of a word placed where it looks next; a word that is no port item leaves it as it is. -/
def State.placeWord (s : State) (nbits w : Nat) : State :=
  match requestOfWord? nbits w with
  | some r => s.placeRequest r
  | none => s

/-- One step: the next instruction, or, where there is none, one cycle (45_core.md R353). -/
def State.stepOf (s : State) : Host.Outcome State Fault Refusal :=
  match s.fetch with
  | some i => exec i s
  | none => .next s.clock

end Sys2Proof.Machine
end

