-- ==== Sys2Proof/Machine/Step.lean ====
section
/-! DEFINITION. The step, and the placing of an instruction where the next step finds it. -/

namespace Sys2Proof.Machine

/-- One step of the machine: the instruction that comes next runs the cycles it takes; with none, one cycle passes. -/
def step (s : State) : Host.Outcome State Fault Refusal := s.stepOf

/-- The state with the instruction whose bits are `w` placed where the next step finds it. -/
def State.withFetchWord (s : State) (nbits w : Nat) : State := s.placeWord nbits w

end Sys2Proof.Machine
end

