-- ==== Sys2Proof/Safety.lean ====
section
/-! DEFINITION. The terms claims use: the ghost observations of 60_exceptions.md R376 (read by no rule of CORE), safe cycles, what
crosses the bus and the ports in a run of cycles, the states from which an operation starts, and the invariant of CORE
(10_state.md R32). -/

namespace Sys2Proof.Safety

open Sys2Proof.Machine

/-- `read_overrun` (60_exceptions.md R376): a word is offered on `mp` and not taken. -/
def readOverrun (cfg : Cfg) (s : CoreState) (i : Inputs) : Bool :=
  (s.mpOut i).rdataValid && !(s.mpIn cfg i).rdataReady

/-- `burst_cut` (60_exceptions.md R376): the connection changes while a transaction is in flight. -/
def burstCut (cfg : Cfg) (s : CoreState) (i : Inputs) : Bool :=
  s.ctl.state != .idle && (s.tick cfg i).sel != s.sel

/-- A boundary cycle (42_crossbar.md R271). -/
def boundary (s : CoreState) (i : Inputs) : Bool := (s.mpOut i).cmdReady

/-- The Controller drives the data lanes or the strobe during the part of a read that belongs to the device
(41_controller.md R246). -/
def drivesAgainstDevice (s : CoreState) (b : BusOut) : Bool :=
  (s.ctl.state == .readDelay || s.ctl.state == .read) && (b.dqOe || b.rwdsOe)

/-- A safe cycle: no word is lost, no burst is cut, nothing is driven against the device. -/
def safeCycle (cfg : Cfg) (s : CoreState) (i : Inputs) : Bool :=
  !readOverrun cfg s i && !burstCut cfg s i && !drivesAgainstDevice s (s.outputs cfg i).bus

/-! ## Runs of cycles -/

/-- `n` cycles of the machine. -/
def cycles : Nat → State → State
  | 0, s => s
  | n + 1, s => cycles n s.clock

/-- CORE through a list of cycles' inputs. -/
def coreRun (cfg : Cfg) : CoreState → List Inputs → CoreState
  | s, [] => s
  | s, i :: is => coreRun cfg (s.tick cfg i) is

/-- What CORE drove on the bus in the observed cycles. -/
def busOf (os : List Obs) : List BusOut := os.map fun o => o.out.bus

/-- The words the data client took in the observed cycles (20_memory.md R61). -/
def takenByData (os : List Obs) : List HalfWord :=
  os.filterMap fun o => if o.out.dp.rdataValid && o.inp.dp.rdataReady then some o.out.dp.rdataData else none

/-- The words the data client handed over in the observed cycles (20_memory.md R61). -/
def handedByData (os : List Obs) : List WItem :=
  os.filterMap fun o => if o.inp.dp.wdataValid && o.out.dp.wdataReady then some o.inp.dp.wdata else none

/-- `rs.busy` as the CSR shows it in the observed cycles. -/
def busyOf (os : List Obs) : List Bool := os.map fun o => o.out.csrRdata.getLsbD 31

/-! ## What a transaction puts on the bus (41_controller.md R235 to R240), cycle by cycle -/

/-- The three cycles of a command-address packet (30_encoding.md R116). -/
def caCycles (ca : CaPacket) : List BusOut := [BusOut.drive (caHi ca), BusOut.drive (caMid ca), BusOut.drive (caLo ca)]

/-- `END_WRITE` and `END_READ` after a write (41_controller.md R214, R222). -/
def writeEnd (cfg : Cfg) : List BusOut := List.replicate (cfg.txLatency + 1) BusOut.park ++ [BusOut.idle]

/-- A memory write (41_controller.md R235): the launch cycle, the packet, the latency slots, the data cycles, the end. -/
def memWrBus (cfg : Cfg) (long : Bool) (ca : CaPacket) (ws : List Inputs) : List BusOut :=
  BusOut.idle :: (caCycles ca ++ List.replicate (cfg.lat long - 1) (BusOut.drive 0#16) ++ ws.map (fun w => BusOut.memWord w.dp)
    ++ writeEnd cfg)

/-- A register write (41_controller.md R237): the launch cycle, the packet, the data cycles from slot 3 on, the end. -/
def regWrBus (cfg : Cfg) (ca : CaPacket) (ws : List Inputs) : List BusOut :=
  BusOut.idle :: (caCycles ca ++ ws.map (fun w => BusOut.regWord w.dp) ++ writeEnd cfg)

/-- A read (41_controller.md R236, R238): the launch cycle, the packet, slot 3 driven 0, the `n` cycles left to the device. -/
def readBus (ca : CaPacket) (n : Nat) : List BusOut :=
  BusOut.idle :: (caCycles ca ++ BusOut.drive 0#16 :: List.replicate n BusOut.listen)

/-- A register write of one word up to and with its word (41_controller.md R237). -/
def wordWriteBus (ca : CaPacket) (v : HalfWord) : List BusOut := BusOut.idle :: (caCycles ca ++ [BusOut.drive v])

/-- A register write of one word to its end. -/
def fullWriteBus (cfg : Cfg) (ca : CaPacket) (v : HalfWord) : List BusOut := wordWriteBus ca v ++ writeEnd cfg

/-- The die numbers `n` down to 0 (43_registerspace.md R320; 41_controller.md R240). -/
def diesDown : Nat → List Nat
  | 0 => [0]
  | n + 1 => (n + 1) :: diesDown n

/-! ## States and cycles from which claims start -/

/-- No reset and no CSR write in the cycle. -/
def quiet (i : Inputs) : Bool := !i.reset && !i.csr.we

/-- The Controller is idle with its start-up over. -/
def idleController (s : State) : Bool := s.core.ctl.state == .idle && s.core.ctl.gate && !s.core.ctl.cfgPending

/-- A data command can be accepted in the coming cycle: the Controller is idle, RegisterSpace is not busy and the data port is
connected (42_crossbar.md R272, row 4). -/
def dataReady (s : State) : Bool := idleController s && !s.core.rs.busy && !s.core.xb.regSelect

/-- A CSR access can start: the Controller is idle and RegisterSpace is not busy. -/
def accessReady (s : State) : Bool := idleController s && !s.core.rs.busy

/-- The cycle neither resets, nor writes the CSR, nor offers a data command. -/
def calm (i : Inputs) : Bool := quiet i && !i.dp.cmdValid

/-- The PHY is locked in the coming cycles, whose scheduled inputs are `is`: by the schedule, or by the device once it is locked
(20_memory.md R101). -/
def lockedFor (s : State) (is : List Inputs) : Bool :=
  match s.device with
  | none => is.all fun i => i.phy.pllLocked
  | some d => decide (d.lockAt ≤ s.cycle)

/-- The PHY locks in the cycle after `w` and stays locked for the cycles `h`, the scheduled inputs being `w ++ h`. -/
def locksBetween (s : State) (w h : List Inputs) : Bool :=
  match s.device with
  | none => (w.all fun i => !i.phy.pllLocked) && h.all fun i => i.phy.pllLocked
  | some d => d.lockAt == s.cycle + w.length

/-- A write word is transferred with `last` if the port is ready (20_memory.md R63). -/
def lastWord (i : Inputs) : Bool := i.dp.wdataValid && i.dp.wdata.last

/-- A read word is strobed and taken with `last` (20_memory.md R63; 41_controller.md R218). -/
def lastRead (i : Inputs) : Bool := i.phy.rwdsIn.getLsbD 1 && i.dp.rdataReady && i.dp.rdataLast

/-- The words offered in the cycles, if each is transferred. -/
def offeredIn (is : List Inputs) : List WItem := is.filterMap fun i => if i.dp.wdataValid then some i.dp.wdata else none

/-- The words strobed and taken in the cycles. -/
def strobedIn (is : List Inputs) : List HalfWord :=
  is.filterMap fun i => if i.phy.rwdsIn.getLsbD 1 && i.dp.rdataReady then some i.phy.dqIn else none

/-- The state after a data-port transaction: the packet is the command's, the Controller is idle, `n` cycles have passed, and
everything else of CORE is as before. -/
def afterTransaction (s : State) (c : Cmd) (rest : List Inputs) (n : Nat) (obs : List Obs) : State :=
  { s with
    core := { s.core with ctl := { s.core.ctl with state := .idle, dlycnt := 0#8, ca := caOf c, autoTxn := false } }
    sched := rest, req := none, cycle := s.cycle + n, trace := s.trace ++ obs }

/-- What of a request is still presented after a cycle in which nothing is accepted: a command waits, a CSR access is over. -/
def waiting : Option Request → Option Request
  | some (.cmd w) => some (.cmd w)
  | some (.csrWrite _) => none
  | some .csrRead => none
  | none => none

/-- The machine with the request of an instruction presented; the autonomous sequences have none. -/
def presenting (i : Instr) (s : State) : State :=
  match i.request? with
  | some r => { s with req := some r }
  | none => s

/-! ## The state graph (41_controller.md R191) -/

/-- The states a state may be followed by, by the two top bits of the packet. -/
def successors (c : Ctl) : List CtlState :=
  match c.state with
  | .idle => [.caWord0]
  | .caWord0 => [.caWord1]
  | .caWord1 => [.caWord2]
  | .caWord2 => [.selectOp]
  | .selectOp => if caRead c.ca then [.readDelay] else if caReg c.ca then [.writeReg, .endWrite] else [.writeDelay]
  | .writeDelay => [.write]
  | .write => [.endWrite]
  | .writeReg => [.endWrite]
  | .endWrite => [.endRead]
  | .readDelay => [.read]
  | .read => [.endRead]
  | .endRead => [.idle]

/-- The states in which the Controller can wait without bound (60_exceptions.md R374). -/
def mayWait (c : Ctl) : Bool :=
  match c.state with
  | .idle => true
  | .selectOp => c.regWritePath && !c.autoTxn
  | .write => true
  | .writeReg => true
  | .read => true
  | _ => false

/-! ## The device, cycle by cycle (20_memory.md R101, R104) -/

/-- The device after the cycles in which CORE drove `bs`, the first of them in cycle `n`. -/
def deviceAfter (cfg : Cfg) : Nat → Device → List BusOut → Device
  | _, d, [] => d
  | n, d, b :: bs => deviceAfter cfg (n + 1) (d.tick cfg n b) bs

/-- The device once it has captured a packet. -/
def withPacket (d : Device) (ca : CaPacket) : Device := { d with ca := ca }

/-- The memory after the words of a burst from word `i` on, the device having captured the packet:
`DevWrite(mem, d, ha + i, data_i, we_i)` for each (20_memory.md R104; 41_controller.md R235). -/
def burstWrite (cfg : Cfg) (d : Device) : Nat → List WItem → List Host.Cell → List Host.Cell
  | _, [], m => m
  | i, w :: ws, m => burstWrite cfg d (i + 1) ws (devWriteMem m (d.die cfg) (d.wordAddr cfg i) w.data w.we)

/-- The words of the data cycles `is` of a read that the consumer takes: word `j` reaches it in the `j`-th of them, having left the
device in cycle `n + j` (20_memory.md R104; 41_controller.md R230). -/
def burstRead (cfg : Cfg) (d : Device) (n : Nat) : Nat → List Inputs → List HalfWord
  | _, [] => []
  | j, i :: is =>
    if i.dp.rdataReady then d.readAt cfg (n + j) (d.wordAddr cfg j) :: burstRead cfg d n (j + 1) is
    else burstRead cfg d n (j + 1) is

/-- No clocked record is on its way to the device (20_memory.md R101). -/
def quietQueue (d : Device) : Bool := d.txq.all fun b => !(b.cs && b.clkEn)

/-- The device behind the PHY can serve a transaction with the given packet: the queues have the PHY's depths, at least one input
register (20_memory.md R100, R101), nothing clocked is on its way, the PHY is locked, and the addressed die's CR0 holds the
configured latency code and fixed-latency flag (20_memory.md R105). -/
def deviceReady (s : State) (d : Device) (ca : CaPacket) : Bool :=
  d.txq.length == s.cfg.txLatency && d.rxq.length == s.cfg.rxLatency && decide (1 ≤ s.cfg.rxLatency) && quietQueue d
    && decide (d.lockAt ≤ s.cycle)
    && (d.cr0 ((withPacket d ca).die s.cfg)).extractLsb' 4 4 == latCode s.cfg.il
    && (d.cr0 ((withPacket d ca).die s.cfg)).getLsbD 3 == s.cfg.fixed

/-! ## The invariant -/

/-- The Controller is between a launch and the first data of its transaction. -/
def CtlState.opening : CtlState → Bool
  | .caWord0 => true
  | .caWord1 => true
  | .caWord2 => true
  | .selectOp => true
  | _ => false

/-- The states in which the counter may be running (10_state.md R32 (i)). -/
def CtlState.counting : CtlState → Bool
  | .writeDelay => true
  | .write => true
  | .endWrite => true
  | .readDelay => true
  | .read => true
  | _ => false

/-- The invariant of CORE: 10_state.md R32 and what the transaction in flight and RegisterSpace's wait states have to do with each
other (43_registerspace.md R324; 45_core.md R357). -/
structure CoreInv (s : CoreState) : Prop where
  /-- 10_state.md R32 (i) -/
  counting : s.ctl.dlycnt ≠ 0#8 → CtlState.counting s.ctl.state = true
  /-- 10_state.md R32 (iii) -/
  autoWrites : s.ctl.autoTxn = true → caRead s.ctl.ca = false ∧ caReg s.ctl.ca = true
  /-- 10_state.md R32 (v) -/
  lockedOut : s.rs.setupDone = false → s.xb.regSelect = true
  /-- while the Controller's own writes are pending, nothing else is in flight (10_state.md R32 (iv)) -/
  pendingAuto : s.ctl.cfgPending = true → s.ctl.state = .idle ∨ s.ctl.autoTxn = true
  /-- the Controller's own writes run only while pending (41_controller.md R240) -/
  autoPending : s.ctl.autoTxn = true → s.ctl.state ≠ .idle → s.ctl.cfgPending = true
  /-- the reserved bits of the packet (30_encoding.md R115) -/
  reserved : s.ctl.ca.extractLsb' 3 13 = 0#13
  /-- the paths of 41_controller.md R191 -/
  memPath : s.ctl.state = .writeDelay ∨ s.ctl.state = .write → caRead s.ctl.ca = false ∧ caReg s.ctl.ca = false
  regPath : s.ctl.state = .writeReg → caRead s.ctl.ca = false ∧ caReg s.ctl.ca = true ∧ s.ctl.autoTxn = false
  readPath : s.ctl.state = .readDelay ∨ s.ctl.state = .read → caRead s.ctl.ca = true
  endPath : s.ctl.state = .endWrite → caRead s.ctl.ca = false
  /-- a strobe is pending for one cycle, in `START`, after set-up (43_registerspace.md R312 (e)) -/
  strobe : s.rs.strobePending = true → s.rs.state = .start ∧ s.rs.setupDone = true
  /-- during set-up every access is a write (43_registerspace.md R308) -/
  setupWrites : s.rs.setupDone = false → s.rs.we = true
  /-- while RegisterSpace waits to hand over its word, its register write is in flight before its data (43_registerspace.md R306) -/
  waitWrite : s.rs.state = .waitWrite → s.rs.we = true ∧ s.xb.regSelect = true ∧ CtlState.opening s.ctl.state = true
    ∧ caRead s.ctl.ca = false ∧ caReg s.ctl.ca = true ∧ s.ctl.autoTxn = false
  /-- while RegisterSpace waits for its word, its register read is in flight (43_registerspace.md R308) -/
  waitRead : s.rs.state = .waitRead → s.rs.we = false ∧ s.rs.setupDone = true ∧ s.xb.regSelect = true
    ∧ (CtlState.opening s.ctl.state = true ∨ s.ctl.state = .readDelay ∨ s.ctl.state = .read)
    ∧ caRead s.ctl.ca = true ∧ s.ctl.autoTxn = false

/-- The invariant of ENV-REF: the memory is in canonical form and the queues have the PHY's depths (20_memory.md R101). -/
structure DeviceInv (cfg : Cfg) (d : Device) : Prop where
  canonical : memWf d.mem = true
  txDepth : d.txq.length = cfg.txLatency
  rxDepth : d.rxq.length = cfg.rxLatency

/-- The invariant of the machine. -/
structure MachineInv (s : State) : Prop where
  core : CoreInv s.core
  device : ∀ d, s.device = some d → DeviceInv s.cfg d

end Sys2Proof.Safety
end

