-- ==== Sys2Proof/Certificates/Slice0/Obligations.lean ====
section
/-! DEFINITION. The statements for the provers. -/

open Sys2Proof Sys2Proof.Machine Sys2Proof.Safety

/-! ## Encodings -/

/-- Every instruction a client can select is read back from its bytes, with every operand at every value (30_encoding.md R110, R111,
R125, R126). -/
def Obligations.DecodeOfEncode : Prop :=
  ∀ i : Instr, i.wellFormed = true → decode (encode i) = .ok i

/-- No bit of a `cmd` item is dropped, and of a CSR word bit 31 alone (30_encoding.md R110, R126, R132). -/
def Obligations.EncodeOfDecode : Prop :=
  (∀ w : CmdWord, encode (Request.decode (.cmd w)) = natToBytes 5 w.toNat) ∧
  (∀ w : CsrWord, encode (Request.decode (.csrWrite w)) = natToBytes 4 (w &&& 0x7FFFFFFF#32).toNat)

/-- The worked words of 30_encoding.md R120 and R127 decode to the operations they stand for. The last clause, that no bytes at all are a
`CSR_READ`, is the model's choice (log 9). -/
def Obligations.WorkedWordsDecode : Prop :=
  decodeTableWord 35 0x500001000 = some (.memWr true 0x1000#32) ∧
  decodeTableWord 35 0x100001000 = some (.memRd true 0x1000#32) ∧
  decodeTableWord 35 0x400400005 = some (.memWr false 0x400005#32) ∧
  decodeTableWord 35 0x700000800 = some (.regWr true 0x800#32) ∧
  decodeTableWord 35 0x300400800 = some (.regRd true 0x400800#32) ∧
  decodeTableWord 32 0x20088FE7 = some (.csrLatch true 0#2 1#8 0#3 0x8FE7#16) ∧
  decodeTableWord 32 0x6009FFFE = some (.csrGoWr 0#2 1#8 1#3 0xFFFE#16) ∧
  decodeTableWord 32 0x48080000 = some (.csrGoRd 1#2 1#8 0#3 0#16) ∧
  decodeTableWord 0 0 = some .csrRead

/-- The layout of the command-address packet; the die-select bit is address bit `DIE_BIT`, packet bit `DIE_BIT + 13`
(30_encoding.md R113 to R115). -/
def Obligations.PacketLayout : Prop :=
  ∀ c : Cmd,
    (caOf c).getLsbD 47 = !c.we ∧ (caOf c).getLsbD 46 = c.aspace ∧ (caOf c).getLsbD 45 = c.burst ∧
    (caOf c).extractLsb' 16 29 = c.addr.extractLsb' 3 29 ∧ (caOf c).extractLsb' 3 13 = 0#13 ∧
    (caOf c).extractLsb' 0 3 = c.addr.extractLsb' 0 3 ∧
    ∀ b, 3 ≤ b → b ≤ 31 → (caOf c).getLsbD (b + 13) = c.addr.getLsbD b

/-- The packet determines the command, and every packet whose reserved bits are 0 is some command's (30_encoding.md R114, R115). -/
def Obligations.PacketsAreCommands : Prop :=
  (∀ c d : Cmd, caOf c = caOf d → c = d) ∧ ∀ p : CaPacket, p.extractLsb' 3 13 = 0#13 → ∃ c : Cmd, caOf c = p

/-- The register-space address: `nr` in bits 2:0, `type` in bits 18:11, bit 0 of the die number in bit `DIE_BIT` when there are two
dies, nothing else; bit 1 of the die number is dropped (30_encoding.md R118; 43_registerspace.md R298). -/
def Obligations.RegisterSpaceAddress : Prop :=
  ∀ (cfg : Cfg) (die : BitVec 2) (type : BitVec 8) (nr : BitVec 3),
    (19 ≤ cfg.dieBit → cfg.dieBit ≤ 31 →
      (regAddr cfg die type nr).toNat =
        (if cfg.nbanks = 2 ∧ die.getLsbD 0 = true then 2 ^ cfg.dieBit else 0) + type.toNat * 2 ^ 11 + nr.toNat) ∧
    regAddr cfg die type nr = regAddr cfg (die &&& 1#2) type nr ∧
    (cfg.nbanks ≠ 2 → regAddr cfg die type nr = regAddr cfg 0#2 type nr)

/-- The Controller's own packet (30_encoding.md R117). -/
def Obligations.AutoconfigurationPacket : Prop :=
  ∀ cfg : Cfg,
    caAutocfg cfg 0#1 = 0x600001000000#48 ∧
    (cfg.nbanks = 2 → 3 ≤ cfg.dieBit → cfg.dieBit ≤ 31 →
      caAutocfg cfg 1#1 = 0x600001000000#48 ||| (1#48 <<< (cfg.dieBit + 13)))

/-! ## Construction -/

/-- Construction reports the first check that fires in the order E0 to E9, and accepts exactly when none does
(40_configuration.md R162, R173). -/
def Obligations.ConstructionReportsFirstCheck : Prop :=
  ∀ i : ConstructInputs,
    (∀ e, construct i = .error e ↔
      ∃ before after, ConfigurationError.order = before ++ e :: after ∧ i.fires e = true ∧ ∀ x ∈ before, i.fires x = false) ∧
    (∀ c, construct i = .ok c ↔ (∀ e, i.fires e = false) ∧ c = i.cfg) ∧
    (∀ e, construct i = .error e → State.powerOn i = .fault (.configurationError e)) ∧
    (∀ c, construct i = .ok c → State.powerOn i = .next (State.resetWith c))

/-- What each check looks at, and every field and constant of the configuration that construction returns (40_configuration.md R152 to
R155, R158, R159, R161, R162, R165 to R169, R173; 30_encoding.md R119). `n` is `LANES`, `f` is `F_BUS`, `w` the short and long `WLAT`.
That E9 fires on every `LANES = 2`, that E5 to E8 are skipped there and that only `LANES = 1` is accepted rest on `WIDE_PACKING` not being
taken, the model's choice (log 10; 00_scope.md R8; 44_wide_mode.md R341). -/
def Obligations.ConstructionChecksAndFields : Prop :=
  ∀ (i : ConstructInputs) (n f il sel : Nat) (fixed : Bool) (w : Bool → Int),
    n = (match i.lanes with | .one => 1 | .two => 2) → f = i.clkFreq * n →
    il = (match i.ilOverride with | some k => k | none => i.profile.minLatency f) →
    (fixed = match i.fixedOverride with | some b => b | none => decide (i.profile.bankCount = 2 ∨ n = 2)) →
    (sel : Int) = max 0 ((i.txLatency : Int) + i.rxLatency - 2) →
    (∀ long, w long = (if long then 2 * (il : Int) else il) - (3 + sel)) →
    (i.fires .e0Profile = false ↔
      (i.profile.bankCount = 1 ∨ i.profile.bankCount = 2) ∧
      (∃ a b, i.profile.rows = 2 ^ a ∧ i.profile.columns = 2 ^ b ∧ a + b ≤ 31) ∧ 3 ≤ i.profile.maxInitialLatency) ∧
    (i.fires .e1Freq = true ↔ i.profile.maxClock < f) ∧
    (i.fires .e2Range = true ↔ il < 3 ∨ i.profile.maxInitialLatency < il ∨ 7 < il) ∧
    (i.fires .e3MinLat = true ↔ il < i.profile.minLatency f) ∧
    (i.fires .e4FixedRequired = true ↔ fixed = false ∧ (i.profile.bankCount = 2 ∨ n = 2)) ∧
    (i.fires .e5PhyRoundtrip = true ↔ n = 1 ∧ fixed = false ∧ w false < 0) ∧
    (i.fires .e6LongNegative = true ↔ n = 1 ∧ w true < 0) ∧
    (i.fires .e7SampleWindow = true ↔ n = 1 ∧ fixed = false ∧ i.txLatency + i.rxLatency < 2) ∧
    (i.fires .e8Dlycnt = true ↔ n = 1 ∧ 255 < w true + i.txLatency + i.rxLatency) ∧
    (i.fires .e9Wide = true ↔ n = 2) ∧
    ∀ c, construct i = .ok c →
      c.lanes = i.lanes ∧ n = 1 ∧ c.nbanks = i.profile.bankCount ∧
      (∃ a b, i.profile.rows = 2 ^ a ∧ i.profile.columns = 2 ^ b ∧ c.dieBit = a + b) ∧
      c.clkFreq = i.clkFreq ∧ c.txLatency = i.txLatency ∧ c.rxLatency = i.rxLatency ∧ c.il = il ∧ c.fixed = fixed ∧
      c.cr0Base = (match i.cr0Base with | some v => v | none => 0x8F07#16) ∧ c.cr0 = cr0Of c.cr0Base il fixed ∧
      c.selDly = sel ∧ c.fixedOffset = 3 + sel ∧ c.endwDly = i.txLatency ∧
      ∀ long, c.wlat long = w long ∧ c.rlat long = w long + i.txLatency + i.rxLatency

/-- A configuration that construction accepts has delays that are not negative and loads that fit the counter; E8 never fires
(40_configuration.md R159, R161, R165 to R170). -/
def Obligations.AcceptedConfigurationsFit : Prop :=
  ∀ i : ConstructInputs,
    construct i ≠ .error .e8Dlycnt ∧
    ∀ c, construct i = .ok c →
      c.wf = true ∧ c.selDly ≤ 11 ∧ c.endwDly ≤ 13 ∧
      ∀ long, (long = true ∨ c.fixed = false) →
        0 ≤ c.wlat long ∧ c.wlat long + c.fixedOffset = c.lat long ∧
        c.rlat long = c.wlat long + c.txLatency + c.rxLatency ∧ c.rlat long ≤ 13

/-- With two lanes and no packing construction refuses, by E9 if by no earlier check (00_scope.md R8; 40_configuration.md R162;
44_wide_mode.md R341). -/
def Obligations.WideDatapathRefused : Prop :=
  ∀ i : ConstructInputs, i.lanes = .two →
    ∃ e, construct i = .error e ∧
      (e = .e0Profile ∨ e = .e1Freq ∨ e = .e2Range ∨ e = .e3MinLat ∨ e = .e4FixedRequired ∨ e = .e9Wide)

/-- The CR0 value: the latency code in bits 7:4, the fixed-latency flag in bit 3, the other bits of the base; the device's table read
backwards gives the latency again (40_configuration.md R157, R158; 30_encoding.md R122; 20_memory.md R102). -/
def Obligations.Cr0Fields : Prop :=
  ∀ (base : HalfWord) (il : Nat) (fixed : Bool), 3 ≤ il → il ≤ 7 →
    (cr0Of base il fixed).extractLsb' 4 4 = latCode il ∧ (cr0Of base il fixed).getLsbD 3 = fixed ∧
    cr0Of base il fixed &&& 0xFF07#16 = base &&& 0xFF07#16 ∧ latencyOfCode (latCode il) = il ∧
    (latCode il).toNat = (il + 11) % 16

/-! ## Reset and the invariant -/

/-- Every field after reset, and the CSR word (10_state.md R30). -/
def Obligations.ResetTable : Prop :=
  ∀ (cfg : Cfg) (s : CoreState) (i : Inputs), cfg.nbanks = 1 ∨ cfg.nbanks = 2 → i.reset = true →
    let t := s.tick cfg i
    t.ctl.state = .idle ∧ t.ctl.dlycnt = 0#8 ∧ t.ctl.ca = 0#48 ∧ t.ctl.autoTxn = false ∧ t.ctl.cfgPending = true ∧
    t.ctl.cfgDie.toNat = cfg.nbanks - 1 ∧ t.xb.regSelect = true ∧ t.rs.state = .start ∧ t.rs.setupDone = false ∧
    t.rs.strobePending = false ∧ t.rs.regValue = cfg.cr0 ∧ t.rs.regNr = 0#3 ∧ t.rs.regType = 1#8 ∧
    t.rs.dieNr.toNat = cfg.nbanks - 1 ∧ t.rs.we = true ∧
    t.rs.csrRdata = 0xA0080000#32 ||| (BitVec.ofNat 32 (cfg.nbanks - 1) <<< 27) ||| cfg.cr0.zeroExtend 32 ∧
    (State.resetWith cfg).core = t

/-- `reset` has priority over everything, and the cycle after it shows idle outputs (45_core.md R354). -/
def Obligations.ResetWins : Prop :=
  ∀ (cfg : Cfg) (s : CoreState) (i j : Inputs), i.reset = true →
    s.tick cfg i = CoreState.reset cfg ∧
    ((s.tick cfg i).outputs cfg j).bus = BusOut.idle ∧ ((s.tick cfg i).outputs cfg j).dp.cmdReady = false ∧
    ((s.tick cfg i).outputs cfg j).dp.wdataReady = false ∧ ((s.tick cfg i).outputs cfg j).dp.rdataValid = false ∧
    ((s.tick cfg i).outputs cfg j).csrRdata = (CoreState.reset cfg).rs.csrRdata

/-- The invariant holds at reset, for every configuration (10_state.md R30, R32). -/
def Obligations.InvariantAtReset : Prop :=
  (∀ cfg, MachineInv (State.resetWith cfg)) ∧ MachineInv State.reset

/-- Every step keeps the invariant (10_state.md R32; 30_encoding.md R115; 20_memory.md R101 to R103). -/
def Obligations.InvariantKeptByEveryStep : Prop :=
  ∀ s t, MachineInv s → Sys2Proof.Machine.step s = .next t → MachineInv t

/-- `ctl.cfg_pending` never goes from 0 to 1 and `rs.setup_done` never from 1 to 0, but by reset (10_state.md R32 (ii)). -/
def Obligations.StartUpFlagsNeverRearm : Prop :=
  ∀ s t, (∀ i ∈ s.sched, i.reset = false) → Sys2Proof.Machine.step s = .next t →
    (s.core.ctl.cfgPending = false → t.core.ctl.cfgPending = false) ∧
    (s.core.rs.setupDone = true → t.core.rs.setupDone = true)

/-! ## The step -/

/-- A step runs the instruction that comes next: the Controller's pending writes, then RegisterSpace's start-up writes, then the one
whose bytes a client presents, and with none one cycle (the order is the model's: log 5). -/
def Obligations.StepRunsDecodedInstruction : Prop :=
  ∀ s : State,
    (s.core.ctl.cfgPending = true → Sys2Proof.Machine.step s = Sys2Proof.Machine.exec .ctlAutocfg s) ∧
    (s.core.ctl.cfgPending = false → s.core.rs.setupDone = false →
      Sys2Proof.Machine.step s = Sys2Proof.Machine.exec .rsSetup s) ∧
    (s.core.ctl.cfgPending = false → s.core.rs.setupDone = true →
      (∀ r i, s.req = some r → decode r.toBytes = .ok i → Sys2Proof.Machine.step s = Sys2Proof.Machine.exec i s) ∧
      (s.req = none → Sys2Proof.Machine.step s = .next s.clock))

/-- Every instruction is a number of cycles of the machine with its request presented, at least one for a client's, and no step
faults or is refused: there is no runtime error channel (45_core.md R353; 60_exceptions.md R370, R372). -/
def Obligations.InstructionsAreCycles : Prop :=
  ∀ (i : Instr) (s : State), ∃ n,
    Sys2Proof.Machine.exec i s = .next (cycles n (presenting i s)) ∧ n ≤ max 1 s.sched.length ∧
    (i.wellFormed = true → 1 ≤ n) ∧
    (cycles n (presenting i s)).cfg = s.cfg ∧ (cycles n (presenting i s)).cycle = s.cycle + n ∧
    (cycles n (presenting i s)).sched = s.sched.drop n ∧ s.trace <+: (cycles n (presenting i s)).trace

/-! ## The Controller -/

/-- The gate: a counter that is not 0 counts down by one and holds everything else; a state entered with `N` is occupied for `N` such
cycles; the port offers nothing in them (41_controller.md R195). -/
def Obligations.GateCountsDown : Prop :=
  ∀ (cfg : Cfg) (c : Ctl),
    (∀ mp phy, c.dlycnt ≠ 0#8 →
      c.tick cfg mp phy = { c with dlycnt := c.dlycnt - 1#8 } ∧ (c.dlycnt - 1#8).toNat + 1 = c.dlycnt.toNat ∧
      (c.portOut phy).cmdReady = false ∧ (c.portOut phy).wdataReady = false ∧ (c.portOut phy).rdataValid = false) ∧
    (∀ mp phy, c.dlycnt = 0#8 → c.tick cfg mp phy = c.tickOpen cfg mp phy) ∧
    ∀ is : List (PortIn × PhyIn), is.length = c.dlycnt.toNat →
      is.foldl (fun d i => d.tick cfg i.1 i.2) c = { c with dlycnt := 0#8 }

/-- The state graph: a state is left only for a successor on the path its packet chooses, a state that is not a waiting state is left
in the first cycle with the gate open, and the packet changes only at a launch (41_controller.md R191; 60_exceptions.md R374). -/
def Obligations.ControllerStateGraph : Prop :=
  ∀ (cfg : Cfg) (c : Ctl) (mp : PortIn) (phy : PhyIn),
    ((c.tick cfg mp phy).state = c.state ∨ (c.tick cfg mp phy).state ∈ successors c) ∧
    (c.gate = true → mayWait c = false → (c.tick cfg mp phy).state ∈ successors c) ∧
    (c.state ≠ .idle → (c.tick cfg mp phy).ca = c.ca ∧ (c.tick cfg mp phy).autoTxn = c.autoTxn)

/-- `IDLE` (41_controller.md R200): a pending configuration write wins over an offered command, and without lock nothing happens. -/
def Obligations.IdleLaunches : Prop :=
  ∀ (cfg : Cfg) (c : Ctl) (mp : PortIn) (phy : PhyIn), c.state = .idle → c.dlycnt = 0#8 →
    c.bus cfg mp = BusOut.idle ∧
    (c.portOut phy).cmdReady = (phy.pllLocked && !c.cfgPending) ∧
    (c.portOut phy).wdataReady = false ∧ (c.portOut phy).rdataValid = false ∧
    (phy.pllLocked = false → c.tick cfg mp phy = c) ∧
    (phy.pllLocked = true → c.cfgPending = true →
      c.tick cfg mp phy = { c with ca := caAutocfg cfg c.cfgDie, autoTxn := true, state := .caWord0 }) ∧
    (phy.pllLocked = true → c.cfgPending = false → mp.cmdValid = true →
      c.tick cfg mp phy = { c with ca := caOf mp.cmd, autoTxn := false, state := .caWord0 }) ∧
    (phy.pllLocked = true → c.cfgPending = false → mp.cmdValid = false → c.tick cfg mp phy = c)

/-- `WRITE` (41_controller.md R210): latency slots while counting, then one word a cycle with RWDS the inverted mask, the clock
stopped while no word is offered, the end with `last`. -/
def Obligations.WriteStreams : Prop :=
  ∀ (cfg : Cfg) (c : Ctl) (mp : PortIn) (phy : PhyIn), c.state = .write →
    (c.gate = false →
      c.bus cfg mp = { cs := true, clkEn := true, dqOe := true, dqOut := 0#16, rwdsOe := false, rwdsOut := 0b11#2 } ∧
      (c.portOut phy).wdataReady = false) ∧
    (c.gate = true → (c.portOut phy).wdataReady = true ∧
      (mp.wdataValid = true →
        c.bus cfg mp = { cs := true, clkEn := true, dqOe := true, dqOut := mp.wdata.data, rwdsOe := true,
                         rwdsOut := ~~~mp.wdata.we } ∧
        (mp.wdata.last = true →
          c.tick cfg mp phy = { c with state := .endWrite, dlycnt := BitVec.ofNat 8 cfg.txLatency }) ∧
        (mp.wdata.last = false → c.tick cfg mp phy = c)) ∧
      (mp.wdataValid = false →
        c.bus cfg mp = { cs := true, clkEn := false, dqOe := true, dqOut := 0#16, rwdsOe := true, rwdsOut := 0b11#2 } ∧
        c.tick cfg mp phy = c))

/-- `READ` (41_controller.md R218): the clock runs in every cycle; a word is offered in a gated cycle with the strobe; only a transfer
with the consumer's `last` ends the burst. -/
def Obligations.ReadOffersStrobedWords : Prop :=
  ∀ (cfg : Cfg) (c : Ctl) (mp : PortIn) (phy : PhyIn), c.state = .read →
    c.bus cfg mp = { cs := true, clkEn := true, dqOe := false, dqOut := 0#16, rwdsOe := false, rwdsOut := 0b11#2 } ∧
    (c.portOut phy).rdataValid = (c.gate && phy.rwdsIn.getLsbD 1) ∧ (c.portOut phy).rdataData = phy.dqIn ∧
    (c.gate = true →
      ((c.portOut phy).rdataValid = true ∧ mp.rdataReady = true ∧ mp.rdataLast = true →
        c.tick cfg mp phy = { c with state := .endRead }) ∧
      (¬((c.portOut phy).rdataValid = true ∧ mp.rdataReady = true ∧ mp.rdataLast = true) → c.tick cfg mp phy = c))

/-- `SELECT_OP` of a register write and `WRITE_REG` (41_controller.md R205, R212): no latency, no mask, RWDS not driven, the clock
stopped while no word is offered; the Controller's own write sends `CFG.CR0` and takes nothing. -/
def Obligations.RegisterWriteStreams : Prop :=
  ∀ (cfg : Cfg) (c : Ctl) (mp : PortIn) (phy : PhyIn), c.dlycnt = 0#8 → caRead c.ca = false → caReg c.ca = true →
    (c.state = .selectOp → c.autoTxn = true →
      c.bus cfg mp = { cs := true, clkEn := true, dqOe := true, dqOut := cfg.cr0, rwdsOe := false, rwdsOut := 0b11#2 } ∧
      (c.portOut phy).wdataReady = false ∧
      c.tick cfg mp phy = { c with state := .endWrite, dlycnt := BitVec.ofNat 8 cfg.txLatency }) ∧
    (c.state = .selectOp ∧ c.autoTxn = false ∨ c.state = .writeReg →
      (c.portOut phy).wdataReady = true ∧
      c.bus cfg mp = { cs := true, clkEn := mp.wdataValid, dqOe := true,
                       dqOut := if mp.wdataValid then mp.wdata.data else 0#16, rwdsOe := false, rwdsOut := 0b11#2 } ∧
      (mp.wdataValid = false → c.tick cfg mp phy = c) ∧
      (mp.wdataValid = true → mp.wdata.last = true →
        c.tick cfg mp phy = { c with state := .endWrite, dlycnt := BitVec.ofNat 8 cfg.txLatency }) ∧
      (mp.wdataValid = true → mp.wdata.last = false → c.tick cfg mp phy = { c with state := .writeReg }))

/-- Who drives what: chip-select is released in `IDLE` and `END_READ` only, the data lanes are left to the device from `READ_DELAY` on,
RWDS is driven in gated `WRITE` and in `END_WRITE` only; what is not driven has its idle value; the device is held in reset exactly while
the PHY is not locked (41_controller.md R192, R226, R246; 20_memory.md R97). -/
def Obligations.ControllerDrives : Prop :=
  ∀ (cfg : Cfg) (c : Ctl) (mp : PortIn),
    ((c.bus cfg mp).cs = false ↔ c.state = .idle ∨ c.state = .endRead) ∧
    ((c.bus cfg mp).rwdsOe = true ↔ (c.state = .write ∧ c.gate = true) ∨ c.state = .endWrite) ∧
    ((c.bus cfg mp).dqOe = false ↔ c.state = .idle ∨ c.state = .endRead ∨ c.state = .readDelay ∨ c.state = .read) ∧
    ((c.bus cfg mp).dqOe = false → (c.bus cfg mp).dqOut = 0#16) ∧
    ((c.bus cfg mp).rwdsOe = false → (c.bus cfg mp).rwdsOut = 0b11#2) ∧
    ((c.bus cfg mp).cs = false → (c.bus cfg mp).clkEn = false) ∧
    ∀ (s : CoreState) (i : Inputs), (s.outputs cfg i).rst = !i.phy.pllLocked

/-- RWDS is looked at in the gated cycle of the delay states and as the strobe of gated `READ`, and nowhere else; with fixed latency
only as the strobe (41_controller.md R208, R216, R218). -/
def Obligations.RwdsReadOnlyWhereStated : Prop :=
  ∀ (cfg : Cfg) (c : Ctl) (mp : PortIn) (p q : PhyIn), p.pllLocked = q.pllLocked →
    ¬(c.state = .read ∧ c.gate = true) →
    (cfg.fixed = true ∨ ¬((c.state = .writeDelay ∨ c.state = .readDelay) ∧ c.gate = true)) →
    c.tick cfg mp p = c.tick cfg mp q

/-! ## The Crossbar -/

/-- The port that is not selected: its ready and valid are low, and nothing it presents reaches the Controller or changes CORE
(42_crossbar.md R266). -/
def Obligations.UnselectedPortIsolated : Prop :=
  ∀ (cfg : Cfg) (s : CoreState) (i : Inputs),
    (s.sel = true →
      (s.dpOut cfg i).cmdReady = false ∧ (s.dpOut cfg i).wdataReady = false ∧ (s.dpOut cfg i).rdataValid = false ∧
      ∀ dp : PortIn, s.tick cfg { i with dp := dp } = s.tick cfg i) ∧
    (s.sel = false →
      (s.rpOut i).cmdReady = false ∧ (s.rpOut i).wdataReady = false ∧ (s.rpOut i).rdataValid = false ∧
      (s.mpIn cfg i).cmd = i.dp.cmd ∧ ((s.mpIn cfg i).cmdValid = true → i.dp.cmdValid = true) ∧
      (s.mpIn cfg i).wdataValid = i.dp.wdataValid ∧ (s.mpIn cfg i).wdata = i.dp.wdata ∧
      (s.mpIn cfg i).rdataReady = i.dp.rdataReady ∧ (s.mpIn cfg i).rdataLast = i.dp.rdataLast)

/-- The priority bit: forced to 1 by lockout; after a boundary cycle it says whether a register command was pending; otherwise it is
kept. A boundary cycle accepts the register command when the register port is connected, the data command when the data port is and no
register command waits (42_crossbar.md R270, R272). -/
def Obligations.PriorityBit : Prop :=
  ∀ (cfg : Cfg) (s : CoreState) (i : Inputs), i.reset = false →
    (s.lockout = true → (s.tick cfg i).xb.regSelect = true) ∧
    (s.lockout = false → boundary s i = false → (s.tick cfg i).xb.regSelect = s.xb.regSelect) ∧
    (s.lockout = false → boundary s i = true →
      (s.tick cfg i).xb.regSelect = (s.rs.port cfg).cmdValid ∧
      (s.cmdTransfer cfg i = true ↔
        (s.xb.regSelect = true ∧ (s.rs.port cfg).cmdValid = true) ∨
        (s.xb.regSelect = false ∧ (s.rs.port cfg).cmdValid = false ∧ i.dp.cmdValid = true)))

/-- Lockout (42_crossbar.md R273): the register port is connected, the data port sees nothing, the stored bit becomes 1 and still is in
the first boundary cycle after the lockout. -/
def Obligations.LockoutDisconnectsDataPort : Prop :=
  ∀ (cfg : Cfg) (s : CoreState) (i : Inputs), s.rs.setupDone = false →
    s.sel = true ∧ (s.dpOut cfg i).cmdReady = false ∧ (s.dpOut cfg i).wdataReady = false ∧
    (s.dpOut cfg i).rdataValid = false ∧ (s.rpOut i).cmdReady = (s.mpOut i).cmdReady ∧
    (s.rpOut i).wdataReady = (s.mpOut i).wdataReady ∧ (s.rpOut i).rdataValid = (s.mpOut i).rdataValid ∧
    (i.reset = false → (s.tick cfg i).xb.regSelect = true ∧
      ∀ is : List Inputs, (∀ j ∈ is, j.reset = false) →
        (∀ k j, is[k]? = some j → boundary (coreRun cfg (s.tick cfg i) (is.take k)) j = true →
          (coreRun cfg (s.tick cfg i) (is.take k)).lockout = true) →
        (coreRun cfg (s.tick cfg i) is).xb.regSelect = true)

/-- No port switch while a transaction is in flight, for as long as it is (42_crossbar.md R276; 45_core.md R357). -/
def Obligations.NoMidBurstSwitch : Prop :=
  ∀ (cfg : Cfg) (s : CoreState) (is : List Inputs), (∀ i ∈ is, i.reset = false) →
    (∀ k, k < is.length → (coreRun cfg s (is.take k)).ctl.state ≠ .idle) →
    (coreRun cfg s is).sel = s.sel

/-- During set-up nothing the data client or the CSR master does has any influence on CORE (43_registerspace.md R320, R302;
60_exceptions.md R385). -/
def Obligations.SetUpIsNotInterruptible : Prop :=
  ∀ (cfg : Cfg) (s : CoreState) (is js : List Inputs),
    List.Forall₂ (fun i j : Inputs => i.reset = j.reset ∧ i.phy = j.phy) is js →
    (∀ k, k < is.length → (coreRun cfg s (is.take k)).rs.setupDone = false) →
    coreRun cfg s is = coreRun cfg s js

/-! ## RegisterSpace -/

/-- The state machine of RegisterSpace (43_registerspace.md R304, R305, R306, R308), with any CSR activity where it is busy. -/
def Obligations.RegisterSpaceMachine : Prop :=
  ∀ (cfg : Cfg) (r : Rs) (rp : PortOut) (csr : CsrIn),
    (r.state = .start →
      (r.port cfg).cmdValid = false ∧ (r.port cfg).wdataValid = false ∧ (r.port cfg).rdataReady = false ∧
      (r.setupDone = false ∨ r.strobePending = true →
        r.tick rp csr = { r with state := .waitCmd, strobePending := false }) ∧
      (r.setupDone = true → r.strobePending = false → csr.we = false → r.tick rp csr = r)) ∧
    (r.state = .waitCmd →
      (r.port cfg).cmdValid = true ∧ (r.port cfg).cmd = regCmd cfg r.we r.dieNr r.regType r.regNr ∧
      (rp.cmdReady = true → r.tick rp csr = { r with state := if r.we then .waitWrite else .waitRead }) ∧
      (rp.cmdReady = false → r.tick rp csr = r)) ∧
    (r.state = .waitWrite →
      (r.port cfg).wdataValid = true ∧ (r.port cfg).wdata = { data := r.regValue, we := 0b11#2, last := true } ∧
      (rp.wdataReady = true → r.setupDone = true → r.tick rp csr = { r with state := .start }) ∧
      (rp.wdataReady = true → r.setupDone = false → r.dieNr = 0#2 →
        r.tick rp csr = { r with state := .start, setupDone := true }) ∧
      (rp.wdataReady = true → r.setupDone = false → r.dieNr ≠ 0#2 →
        r.tick rp csr = { r with state := .start, dieNr := r.dieNr - 1#2 }) ∧
      (rp.wdataReady = false → r.tick rp csr = r)) ∧
    (r.state = .waitRead →
      (r.port cfg).rdataReady = true ∧ (r.port cfg).rdataLast = true ∧
      (rp.rdataValid = true → r.tick rp csr = { r with regValue := rp.rdataData, state := .start }) ∧
      (rp.rdataValid = false → r.tick rp csr = r)) ∧
    (r.setupDone = true → (r.tick rp csr).setupDone = true)

/-- A CSR write (43_registerspace.md R302): accepted when not busy, bit 31 ignored; when busy nothing at all is written. -/
def Obligations.CsrWriteLatchesOrIsDropped : Prop :=
  ∀ (r : Rs) (rp : PortOut) (w : CsrWord),
    (r.busy = false →
      r.tick rp { we := true, wdata := w } =
        { r with regValue := w.extractLsb' 0 16, regNr := w.extractLsb' 16 3, regType := w.extractLsb' 19 8,
                 dieNr := w.extractLsb' 27 2, we := w.getLsbD 29, strobePending := w.getLsbD 30 }) ∧
    (r.busy = true → r.tick rp { we := true, wdata := w } = r.tick rp { we := false, wdata := w }) ∧
    r.tick rp { we := true, wdata := w } = r.tick rp { we := true, wdata := w &&& 0x7FFFFFFF#32 }

/-- The CSR word (43_registerspace.md R310; 30_encoding.md R126): what it shows of the state, bit 30 always 0, and what was latched
reads back. -/
def Obligations.CsrReadsBack : Prop :=
  ∀ r : Rs,
    r.csrRdata.getLsbD 31 = r.busy ∧ r.csrRdata.getLsbD 30 = false ∧ r.csrRdata.getLsbD 29 = r.we ∧
    r.csrRdata.extractLsb' 27 2 = r.dieNr ∧ r.csrRdata.extractLsb' 19 8 = r.regType ∧ r.csrRdata.extractLsb' 16 3 = r.regNr ∧
    r.csrRdata.extractLsb' 0 16 = r.regValue ∧
    ∀ (rp : PortOut) (w : CsrWord), r.busy = false →
      (r.tick rp { we := true, wdata := w }).csrRdata =
        (if w.getLsbD 30 then (w ||| 0x80000000#32) &&& 0xBFFFFFFF#32 else w &&& 0x3FFFFFFF#32)

/-- `rs.busy` (43_registerspace.md R296, R324): it rises only by an accepted write with strobe, and falls only on the return to `START`
with set-up done. -/
def Obligations.BusyRisesAndFalls : Prop :=
  ∀ (r : Rs) (rp : PortOut) (csr : CsrIn),
    (r.busy = false ↔ r.state = .start ∧ r.setupDone = true ∧ r.strobePending = false) ∧
    (r.busy = false → ((r.tick rp csr).busy = true ↔ csr.we = true ∧ csr.wdata.getLsbD 30 = true)) ∧
    (r.busy = true → ((r.tick rp csr).busy = false ↔
      (r.state = .waitWrite ∧ rp.wdataReady = true ∧ r.strobePending = false ∧ (r.setupDone = true ∨ r.dieNr = 0#2)) ∨
      (r.state = .waitRead ∧ rp.rdataValid = true ∧ r.strobePending = false ∧ r.setupDone = true)))

/-! ## The transactions of the data port -/

/-- `MEM_WR` completes, with what it puts on the bus and what it leaves unchanged (41_controller.md R229, R235; 70_reset_and_hazards.md
R430): for every PHY, any number of words, a producer of any pace. `m` is the cycle of the latency sample, `ws ++ [w]` are the data
cycles. -/
def Obligations.MemWrCompletes : Prop :=
  ∀ (s : State) (burst : Bool) (addr : HalfAddr) (c m w : Inputs) (pre ws post rest : List Inputs) (long : Bool),
    s.cfg.wf = true → dataReady s = true → s.device = none →
    s.sched = c :: (pre ++ ws ++ w :: (post ++ rest)) → (∀ i ∈ c :: (pre ++ ws ++ w :: post), quiet i = true) →
    c.phy.pllLocked = true →
    pre[4 + s.cfg.selDly]? = some m → long = longLatency s.cfg m.phy → pre.length = 2 + s.cfg.lat long →
    (∀ i ∈ ws, lastWord i = false) → lastWord w = true → post.length = s.cfg.txLatency + 2 →
    ∃ obs,
      Sys2Proof.Machine.exec (.memWr burst addr) s =
        .next (afterTransaction s { we := true, aspace := false, burst := burst, addr := addr } rest
          (s.cfg.lat long + ws.length + s.cfg.txLatency + 6) obs) ∧
      busOf obs = memWrBus s.cfg long (caOf { we := true, aspace := false, burst := burst, addr := addr }) (ws ++ [w]) ∧
      handedByData obs = offeredIn (ws ++ [w]) ∧ takenByData obs = []

/-- `MEM_RD` and `REG_RD` complete, with the words the consumer takes (41_controller.md R230, R236, R238; 70_reset_and_hazards.md
R411, R430): for every PHY, any number of words, a consumer of any pace. `m` is the cycle of the latency sample, `ws ++ [w]` are the
data cycles. -/
def Obligations.ReadsComplete : Prop :=
  ∀ (s : State) (burst : Bool) (addr : HalfAddr) (c m w e : Inputs) (pre ws rest : List Inputs) (long reg : Bool),
    s.cfg.wf = true → dataReady s = true → s.device = none →
    s.sched = c :: (pre ++ ws ++ w :: e :: rest) → (∀ i ∈ c :: (pre ++ ws ++ [w, e]), quiet i = true) →
    c.phy.pllLocked = true →
    pre[4 + s.cfg.selDly]? = some m → long = longLatency s.cfg m.phy →
    pre.length = 2 + s.cfg.lat long + s.cfg.txLatency + s.cfg.rxLatency →
    (∀ i ∈ ws, lastRead i = false) → lastRead w = true →
    ∃ obs,
      Sys2Proof.Machine.exec (if reg then .regRd burst addr else .memRd burst addr) s =
        .next (afterTransaction s { we := false, aspace := reg, burst := burst, addr := addr } rest
          (s.cfg.lat long + s.cfg.txLatency + s.cfg.rxLatency + ws.length + 5) obs) ∧
      busOf obs = readBus (caOf { we := false, aspace := reg, burst := burst, addr := addr })
        (s.cfg.lat long + s.cfg.txLatency + s.cfg.rxLatency + ws.length - 1) ++ [BusOut.idle] ∧
      takenByData obs = strobedIn (ws ++ [w]) ∧ handedByData obs = []

/-- `REG_WR` completes, with what it puts on the bus (41_controller.md R231, R237), the device fed exactly that: for every PHY and with
any device or none, any number of words, a producer of any pace, no latency. -/
def Obligations.RegWrCompletes : Prop :=
  ∀ (s : State) (burst : Bool) (addr : HalfAddr) (c w : Inputs) (pre ws post rest : List Inputs),
    s.cfg.wf = true → dataReady s = true →
    s.sched = c :: (pre ++ ws ++ w :: (post ++ rest)) → (∀ i ∈ c :: (pre ++ ws ++ w :: post), quiet i = true) →
    lockedFor s [c] = true →
    pre.length = 3 → (∀ i ∈ ws, lastWord i = false) → lastWord w = true → post.length = s.cfg.txLatency + 2 →
    ∃ obs,
      Sys2Proof.Machine.exec (.regWr burst addr) s =
        .next { afterTransaction s { we := true, aspace := true, burst := burst, addr := addr } rest
          (ws.length + s.cfg.txLatency + 7) obs with
                device := s.device.map fun d => deviceAfter s.cfg s.cycle d (busOf obs) } ∧
      busOf obs = regWrBus s.cfg (caOf { we := true, aspace := true, burst := burst, addr := addr }) (ws ++ [w]) ∧
      handedByData obs = offeredIn (ws ++ [w]) ∧ takenByData obs = []

/-- The hand-over (42_crossbar.md R272 row 2, R280; 70_reset_and_hazards.md R405): where the register port is still connected, as the boot
leaves it, a data-port transaction runs as from one cycle later, with the data port connected; from there it completes as above. In that
cycle nothing is accepted and the bus is idle, and a device ready for the transaction still is, with its memory and registers as they
were. -/
def Obligations.HandOverCycle : Prop :=
  ∀ (s : State) (c : Inputs) (rest : List Inputs),
    accessReady s = true → s.core.xb.regSelect = true → s.sched = c :: rest → rest ≠ [] → quiet c = true → lockedFor s [c] = true →
    ∀ i, (∃ burst addr, i = .memRd burst addr ∨ i = .memWr burst addr ∨ i = .regRd burst addr ∨ i = .regWr burst addr) →
      ∃ (t : State) (o : Obs),
        Sys2Proof.Machine.exec i s = Sys2Proof.Machine.exec i t ∧ dataReady t = true ∧
        t = { s with
              core := { s.core with xb := { regSelect := false } }
              device := s.device.map fun d => deviceAfter s.cfg s.cycle d [BusOut.idle]
              sched := rest, cycle := s.cycle + 1, trace := s.trace ++ [o] } ∧
        o.out.dp.cmdReady = false ∧ o.out.bus = BusOut.idle ∧ handedByData [o] = [] ∧ takenByData [o] = [] ∧
        ∀ (d : Device) (ca : CaPacket), s.device = some d → deviceReady s d ca = true →
          ∃ e, t.device = some e ∧ deviceReady t e ca = true ∧ e.draws = d.draws ∧ e.mem = d.mem ∧ e.cr0a = d.cr0a ∧
            e.cr0b = d.cr0b ∧ e.id0 = d.id0

/-! ## The CSR operations -/

/-- `CSR_LATCH` (43_registerspace.md R316): when RegisterSpace is not busy the fields are latched, `rs.busy` stays 0, and everything
else is as a cycle without the write leaves it. -/
def Obligations.CsrLatchCompletes : Prop :=
  ∀ (s : State) (we : Bool) (die : BitVec 2) (type : BitVec 8) (nr : BitVec 3) (value : HalfWord),
    s.core.rs.busy = false → quiet s.scheduled = true →
    ∃ t o,
      Sys2Proof.Machine.exec (.csrLatch we die type nr value) s = .next t ∧
      t.core.rs = { s.core.rs with regValue := value, regNr := nr, regType := type, dieNr := die, we := we } ∧
      t.core.rs.busy = false ∧
      t = { State.clock { s with req := none } with
            core := { (State.clock { s with req := none }).core with rs := t.core.rs }, trace := s.trace ++ [o] } ∧
      o.out = State.outputs { s with req := none }

/-- A CSR write while busy is lost, with or without strobe: CORE and the device are as a cycle without it leaves them
(43_registerspace.md R302; 70_reset_and_hazards.md R414). -/
def Obligations.CsrWriteWhileBusyIsLost : Prop :=
  ∀ (s : State) (we : Bool) (die : BitVec 2) (type : BitVec 8) (nr : BitVec 3) (value : HalfWord), s.core.rs.busy = true →
    s.scheduled.csr.we = false →
    ∀ i ∈ [Instr.csrLatch we die type nr value, .csrGoWr die type nr value, .csrGoRd die type nr value],
      ∃ t, Sys2Proof.Machine.exec i s = .next t ∧ t.core = (State.clock { s with req := none }).core ∧
        t.device = (State.clock { s with req := none }).device ∧ t.cycle = s.cycle + 1

/-- `CSR_GO_WR` completes (43_registerspace.md R312, R317): the fields are latched, the register command takes the port, the word goes
out after the packet, and `rs.busy` is 0, then 1, then 0. -/
def Obligations.CsrGoWrCompletes : Prop :=
  ∀ (s : State) (die : BitVec 2) (type : BitVec 8) (nr : BitVec 3) (value : HalfWord) (h rest : List Inputs),
    accessReady s = true → s.sched = h ++ rest → h.length = 8 → (∀ i ∈ h, calm i = true) → lockedFor s h = true →
    ∃ obs,
      Sys2Proof.Machine.exec (.csrGoWr die type nr value) s =
        .next { s with
                core := { ctl := { s.core.ctl with
                                   state := .endWrite, dlycnt := BitVec.ofNat 8 s.cfg.txLatency,
                                   ca := caOf (regCmd s.cfg true die type nr), autoTxn := false }
                          xb := { regSelect := true }
                          rs := { state := .start, setupDone := true, strobePending := false, regValue := value, regNr := nr,
                                  regType := type, dieNr := die, we := true } }
                device := s.device.map fun d => deviceAfter s.cfg s.cycle d (busOf obs)
                sched := rest, req := none, cycle := s.cycle + 8, trace := s.trace ++ obs } ∧
      busOf obs = List.replicate 3 BusOut.idle ++ wordWriteBus (caOf (regCmd s.cfg true die type nr)) value ∧
      busyOf obs = false :: List.replicate 7 true

/-- `CSR_GO_RD` completes (43_registerspace.md R318): the half-word of the first strobed gated cycle of `READ` is captured, `rs.busy`
is 0, then 1, then 0, and the data port sees nothing of it. `m` is the cycle of the latency sample, `w` the first strobed cycle. -/
def Obligations.CsrGoRdCompletes : Prop :=
  ∀ (s : State) (die : BitVec 2) (type : BitVec 8) (nr : BitVec 3) (value : HalfWord) (m w : Inputs)
    (h pre ws rest : List Inputs) (long : Bool),
    s.cfg.wf = true → accessReady s = true → s.device = none → s.sched = h ++ (pre ++ ws ++ w :: rest) →
    (∀ i ∈ h, calm i = true ∧ i.phy.pllLocked = true) → (∀ i ∈ pre ++ ws ++ [w], quiet i = true) → h.length = 4 →
    pre[4 + s.cfg.selDly]? = some m → long = longLatency s.cfg m.phy →
    pre.length = 2 + s.cfg.lat long + s.cfg.txLatency + s.cfg.rxLatency →
    (∀ i ∈ ws, i.phy.rwdsIn.getLsbD 1 = false) → w.phy.rwdsIn.getLsbD 1 = true →
    ∃ obs,
      Sys2Proof.Machine.exec (.csrGoRd die type nr value) s =
        .next { s with
                core := { ctl := { s.core.ctl with
                                   state := .endRead, dlycnt := 0#8, ca := caOf (regCmd s.cfg false die type nr),
                                   autoTxn := false }
                          xb := { regSelect := true }
                          rs := { state := .start, setupDone := true, strobePending := false, regValue := w.phy.dqIn,
                                  regNr := nr, regType := type, dieNr := die, we := false } }
                sched := rest, req := none
                cycle := s.cycle + (s.cfg.lat long + s.cfg.txLatency + s.cfg.rxLatency + ws.length + 7)
                trace := s.trace ++ obs } ∧
      busOf obs = List.replicate 3 BusOut.idle ++ readBus (caOf (regCmd s.cfg false die type nr))
        (s.cfg.lat long + s.cfg.txLatency + s.cfg.rxLatency + ws.length - 1) ∧
      busyOf obs = false :: List.replicate (s.cfg.lat long + s.cfg.txLatency + s.cfg.rxLatency + ws.length + 6) true ∧
      takenByData obs = [] ∧ handedByData obs = []

/-- `CSR_READ` completes in every state (43_registerspace.md R319): the value read is the CSR word of the cycle, and the machine is as
the cycle alone leaves it. -/
def Obligations.CsrReadCompletes : Prop :=
  ∀ s : State, ∃ o,
    Sys2Proof.Machine.exec .csrRead s = .next (State.clock { s with req := none }) ∧
    (State.clock { s with req := none }).trace = s.trace ++ [o] ∧ o.out.csrRdata = s.core.rs.csrRdata

/-! ## The autonomous sequences -/

/-- `CTL_AUTOCFG` completes (41_controller.md R240): one write of `CFG.CR0` per die, downwards, whatever the clients do meanwhile;
nothing is taken from them; it waits for nothing once the PHY is locked. -/
def Obligations.CtlAutocfgCompletes : Prop :=
  ∀ (s : State) (h rest : List Inputs),
    s.cfg.wf = true → s.core.ctl.state = .idle → s.core.ctl.dlycnt = 0#8 → s.core.ctl.cfgPending = true →
    s.core.rs.setupDone = false → s.core.rs.state = .start ∨ s.core.rs.state = .waitCmd → s.core.rs.strobePending = false →
    s.sched = h ++ rest → h.length = (s.core.ctl.cfgDie.toNat + 1) * (7 + s.cfg.txLatency) → (∀ i ∈ h, i.reset = false) →
    lockedFor s h = true →
    ∃ obs,
      Sys2Proof.Machine.exec .ctlAutocfg s =
        .next { s with
                core := { ctl := { state := .idle, dlycnt := 0#8, ca := caAutocfg s.cfg 0#1, autoTxn := true,
                                   cfgPending := false, cfgDie := 0#1 }
                          xb := { regSelect := true }
                          rs := { s.core.rs with state := .waitCmd } }
                device := s.device.map fun d => deviceAfter s.cfg s.cycle d (busOf obs)
                sched := rest, req := waiting s.req, cycle := s.cycle + h.length, trace := s.trace ++ obs } ∧
      busOf obs = (diesDown s.core.ctl.cfgDie.toNat).flatMap
        (fun k => fullWriteBus s.cfg (caAutocfg s.cfg (BitVec.ofNat 1 k)) s.cfg.cr0) ∧
      handedByData obs = [] ∧ takenByData obs = []

/-- `RS_SETUP` completes (43_registerspace.md R320; 70_reset_and_hazards.md R403, R404): one register write per die, downwards to die 0,
whatever the clients do meanwhile, and set-up is done with the last word, the Controller still ending that write. -/
def Obligations.RsSetupCompletes : Prop :=
  ∀ (s : State) (h rest : List Inputs),
    s.cfg.wf = true → s.core.ctl.state = .idle → s.core.ctl.dlycnt = 0#8 → s.core.ctl.cfgPending = false →
    s.core.rs.setupDone = false → s.core.rs.state = .waitCmd → s.core.rs.strobePending = false → s.core.rs.we = true →
    s.sched = h ++ rest → h.length = s.core.rs.dieNr.toNat * (7 + s.cfg.txLatency) + 5 → (∀ i ∈ h, i.reset = false) →
    lockedFor s h = true →
    ∃ obs,
      Sys2Proof.Machine.exec .rsSetup s =
        .next { s with
                core := { ctl := { s.core.ctl with
                                   state := .endWrite, dlycnt := BitVec.ofNat 8 s.cfg.txLatency,
                                   ca := caOf (regCmd s.cfg true 0#2 s.core.rs.regType s.core.rs.regNr), autoTxn := false }
                          xb := { regSelect := true }
                          rs := { s.core.rs with state := .start, setupDone := true, dieNr := 0#2 } }
                device := s.device.map fun d => deviceAfter s.cfg s.cycle d (busOf obs)
                sched := rest, req := waiting s.req, cycle := s.cycle + h.length, trace := s.trace ++ obs } ∧
      busOf obs = (diesDown s.core.rs.dieNr.toNat).dropLast.flatMap
          (fun k => fullWriteBus s.cfg (caOf (regCmd s.cfg true (BitVec.ofNat 2 k) s.core.rs.regType s.core.rs.regNr))
            s.core.rs.regValue)
        ++ wordWriteBus (caOf (regCmd s.cfg true 0#2 s.core.rs.regType s.core.rs.regNr)) s.core.rs.regValue ∧
      handedByData obs = [] ∧ takenByData obs = []

/-- From reset to the end of set-up (70_reset_and_hazards.md R400 to R404, R408): the PHY locks after `w`; every die is written by the
Controller and again by RegisterSpace, highest first; `rs.busy` falls `TX_LATENCY + 2` cycles before the Controller is back in `IDLE`;
the data port takes part in nothing. -/
def Obligations.BootFromReset : Prop :=
  ∀ (s : State) (w h rest : List Inputs),
    s.cfg.wf = true → s.core = CoreState.reset s.cfg → s.req = none → s.sched = w ++ h ++ rest →
    locksBetween s w h = true → (∀ i ∈ w ++ h, i.reset = false) →
    h.length = 2 * s.cfg.nbanks * (7 + s.cfg.txLatency) →
    (∀ i ∈ h.drop (h.length - (s.cfg.txLatency + 2)), i.csr.we = false) →
    ∃ obs,
      (cycles (w.length + h.length) s).core =
        { ctl := { state := .idle, dlycnt := 0#8, ca := caAutocfg s.cfg 0#1, autoTxn := false, cfgPending := false,
                   cfgDie := 0#1 }
          xb := { regSelect := true }
          rs := { state := .start, setupDone := true, strobePending := false, regValue := s.cfg.cr0, regNr := 0#3,
                  regType := 1#8, dieNr := 0#2, we := true } } ∧
      (cycles (w.length + h.length) s).trace = s.trace ++ obs ∧
      busOf obs = List.replicate w.length BusOut.idle ++
        (diesDown (s.cfg.nbanks - 1) ++ diesDown (s.cfg.nbanks - 1)).flatMap
          (fun k => fullWriteBus s.cfg (caAutocfg s.cfg (BitVec.ofNat 1 k)) s.cfg.cr0) ∧
      busyOf obs = List.replicate (w.length + h.length - (s.cfg.txLatency + 2)) true
        ++ List.replicate (s.cfg.txLatency + 2) false ∧
      (∀ o ∈ obs, o.out.dp.cmdReady = false) ∧ handedByData obs = [] ∧ takenByData obs = []

/-- A stall is no fault and no change (60_exceptions.md R374, R375): a read without strobe, and a write of the data port without words,
stay as they are for any number of cycles, with the device selected and no command accepted. -/
def Obligations.StallsChangeNothing : Prop :=
  ∀ (cfg : Cfg) (s : CoreState) (is : List Inputs), (∀ i ∈ is, i.reset = false) → s.ctl.dlycnt = 0#8 →
    (s.ctl.state = .read → (∀ i ∈ is, i.phy.rwdsIn.getLsbD 1 = false) →
      (coreRun cfg s is).ctl = s.ctl ∧ (s.rs.state = .waitRead → (coreRun cfg s is).rs = s.rs) ∧
      ∀ i, ((coreRun cfg s is).outputs cfg i).bus = BusOut.listen ∧ ((coreRun cfg s is).outputs cfg i).dp.cmdReady = false) ∧
    (s.sel = false →
      s.ctl.state = .write ∨ s.ctl.state = .writeReg ∨ (s.ctl.state = .selectOp ∧ s.ctl.regWritePath = true ∧ s.ctl.autoTxn = false) →
      (∀ i ∈ is, i.dp.wdataValid = false) →
      (coreRun cfg s is).ctl = s.ctl ∧
      ∀ i, i.dp.wdataValid = false →
        ((coreRun cfg s is).outputs cfg i).bus.cs = true ∧ ((coreRun cfg s is).outputs cfg i).bus.clkEn = false ∧
        ((coreRun cfg s is).outputs cfg i).dp.cmdReady = false)

/-! ## The reference environment -/

/-- One bus cycle changes at most the two bytes of the half-word its data slot addresses, only in a data slot of a memory write whose mask
enables a byte, and of them only a byte that the mask enables or that nothing has written (20_memory.md R103, R104). That a word with no
byte enabled writes nothing is the model's reading (log 20). -/
def Obligations.BusCycleMemoryFrame : Prop :=
  ∀ (cfg : Cfg) (n : Nat) (d : Device) (b : BusOut) (k : Nat),
    memGet (d.busCycle cfg n b).1.mem k ≠ memGet d.mem k →
    b.cs = true ∧ b.clkEn = true ∧ 3 ≤ d.slot ∧ caRead d.ca = false ∧ caReg d.ca = false ∧
    2 + d.latency cfg ≤ d.slot ∧ b.sampledRwds n ≠ 0b11#2 ∧
    ((k = byteKey (d.die cfg) (d.dataAddr cfg) false ∧ ((b.sampledRwds n).getLsbD 1 = false ∨ memGet d.mem k = none)) ∨
      (k = byteKey (d.die cfg) (d.dataAddr cfg) true ∧ ((b.sampledRwds n).getLsbD 0 = false ∨ memGet d.mem k = none)))

/-- A half-word written with both bytes enabled reads back; a masked byte is kept, or is 0 in a new half-word; every other half-word is
unchanged (20_memory.md R103). -/
def Obligations.DeviceWriteThenRead : Prop :=
  ∀ (m : List Host.Cell) (die : Bool) (ha : HalfAddr) (v : HalfWord) (mask : Mask) (n : Nat),
    devReadMem (devWriteMem m die ha v 0b11#2) n die ha = v ∧
    (mask.getLsbD 1 = true → (devReadMem (devWriteMem m die ha v mask) n die ha).extractLsb' 8 8 = v.extractLsb' 8 8) ∧
    (mask.getLsbD 0 = true → (devReadMem (devWriteMem m die ha v mask) n die ha).extractLsb' 0 8 = v.extractLsb' 0 8) ∧
    (mask.getLsbD 1 = true → mask.getLsbD 0 = false →
      (devReadMem (devWriteMem m die ha v mask) n die ha).extractLsb' 0 8 = (memGet m (byteKey die ha true)).getD 0#8) ∧
    (mask.getLsbD 0 = true → mask.getLsbD 1 = false →
      (devReadMem (devWriteMem m die ha v mask) n die ha).extractLsb' 8 8 = (memGet m (byteKey die ha false)).getD 0#8) ∧
    devWriteMem m die ha v 0b00#2 = m ∧
    (∀ (die' : Bool) (ha' : HalfAddr), (die', ha') ≠ (die, ha) →
      devReadMem (devWriteMem m die ha v mask) n die' ha' = devReadMem m n die' ha') ∧
    (memWf m = true → memWf (devWriteMem m die ha v mask) = true)

/-- `MEM_WR` with the reference device behind the PHY (41_controller.md R235; 20_memory.md R104, R105): every word of the burst is
stored at its address, for every PHY and a producer of any pace, and no register of the device changes. `x` is the device's draw of the
extra latency, which the model takes from a list (log 17); the address of a later word of a wrapped burst is a free value (log 19). -/
def Obligations.DeviceStoresBurst : Prop :=
  ∀ (s : State) (d : Device) (burst : Bool) (addr : HalfAddr) (c w : Inputs) (pre ws post rest : List Inputs) (x : Bool)
    (more : List Bool),
    s.cfg.wf = true → dataReady s = true → s.device = some d →
    deviceReady s d (caOf { we := true, aspace := false, burst := burst, addr := addr }) = true → d.draws = x :: more →
    s.sched = c :: (pre ++ ws ++ w :: (post ++ rest)) → (∀ i ∈ c :: (pre ++ ws ++ w :: post), quiet i = true) →
    pre.length = 2 + s.cfg.lat (s.cfg.fixed || x) →
    (∀ i ∈ ws, lastWord i = false) → lastWord w = true → post.length = s.cfg.txLatency + 2 →
    ∃ dev obs,
      Sys2Proof.Machine.exec (.memWr burst addr) s =
        .next { afterTransaction s { we := true, aspace := false, burst := burst, addr := addr } rest
          (s.cfg.lat (s.cfg.fixed || x) + ws.length + s.cfg.txLatency + 6) obs with device := some dev } ∧
      dev.mem = burstWrite s.cfg (withPacket d (caOf { we := true, aspace := false, burst := burst, addr := addr })) 0
        (offeredIn (ws ++ [w])) d.mem ∧
      dev.cr0a = d.cr0a ∧ dev.cr0b = d.cr0b ∧ dev.id0 = d.id0 ∧ dev.draws = more ∧ quietQueue dev = true ∧
      handedByData obs = offeredIn (ws ++ [w]) ∧ takenByData obs = []

/-- `MEM_RD` and `REG_RD` with the reference device behind the PHY (41_controller.md R230, R236, R238; 20_memory.md R104): in data
cycle `j` the consumer can take word `j` of the burst; one it does not take is lost (60_exceptions.md R376); the device's memory and
registers do not change. `x` is the device's draw of the extra latency, which the model takes from a list (log 17); a byte never written
(log 14) and the address of a later word of a wrapped burst (log 19) are free values. -/
def Obligations.DeviceDeliversBurst : Prop :=
  ∀ (s : State) (d : Device) (burst : Bool) (addr : HalfAddr) (c w e : Inputs) (pre ws rest : List Inputs) (reg x : Bool)
    (more : List Bool),
    s.cfg.wf = true → dataReady s = true → s.device = some d →
    deviceReady s d (caOf { we := false, aspace := reg, burst := burst, addr := addr }) = true → d.draws = x :: more →
    s.sched = c :: (pre ++ ws ++ w :: e :: rest) → (∀ i ∈ c :: (pre ++ ws ++ [w, e]), quiet i = true) →
    pre.length = 2 + s.cfg.lat (s.cfg.fixed || x) + s.cfg.txLatency + s.cfg.rxLatency →
    (∀ i ∈ ws, i.dp.rdataReady = true → i.dp.rdataLast = false) → w.dp.rdataReady = true → w.dp.rdataLast = true →
    ∃ dev obs,
      Sys2Proof.Machine.exec (if reg then .regRd burst addr else .memRd burst addr) s =
        .next { afterTransaction s { we := false, aspace := reg, burst := burst, addr := addr } rest
          (s.cfg.lat (s.cfg.fixed || x) + s.cfg.txLatency + s.cfg.rxLatency + ws.length + 5) obs with device := some dev } ∧
      takenByData obs = burstRead s.cfg (withPacket d (caOf { we := false, aspace := reg, burst := burst, addr := addr }))
        (s.cycle + s.cfg.lat (s.cfg.fixed || x) + s.cfg.txLatency + 3) 0 (ws ++ [w]) ∧
      dev.mem = d.mem ∧ dev.cr0a = d.cr0a ∧ dev.cr0b = d.cr0b ∧ dev.id0 = d.id0 ∧ dev.draws = more ∧ handedByData obs = []

/-- `REG_WR` with the reference device behind the PHY (41_controller.md R237; 20_memory.md R103, R104): the first word transferred
reaches the register of its address, with no latency; later words reach none; memory does not change. -/
def Obligations.DeviceTakesRegisterWord : Prop :=
  ∀ (s : State) (d : Device) (burst : Bool) (addr : HalfAddr) (c w : Inputs) (pre ws post rest : List Inputs) (v : WItem)
    (vs : List WItem),
    s.cfg.wf = true → dataReady s = true → s.device = some d → d.txq.length = s.cfg.txLatency → quietQueue d = true →
    d.lockAt ≤ s.cycle →
    s.sched = c :: (pre ++ ws ++ w :: (post ++ rest)) → (∀ i ∈ c :: (pre ++ ws ++ w :: post), quiet i = true) →
    pre.length = 3 → (∀ i ∈ ws, lastWord i = false) → lastWord w = true → post.length = s.cfg.txLatency + 2 →
    offeredIn (ws ++ [w]) = v :: vs →
    ∃ dev obs,
      Sys2Proof.Machine.exec (.regWr burst addr) s =
        .next { afterTransaction s { we := true, aspace := true, burst := burst, addr := addr } rest
          (ws.length + s.cfg.txLatency + 7) obs with device := some dev } ∧
      (∀ p : Device, p = withPacket d (caOf { we := true, aspace := true, burst := burst, addr := addr }) →
        dev.cr0a = (p.writeReg (p.die s.cfg) (p.ha s.cfg) v.data).cr0a ∧
        dev.cr0b = (p.writeReg (p.die s.cfg) (p.ha s.cfg) v.data).cr0b) ∧
      dev.mem = d.mem ∧ dev.id0 = d.id0 ∧ quietQueue dev = true

/-- After the boot of BootFromReset every die of the reference device holds `CFG.CR0`, and its memory is as it was
(70_reset_and_hazards.md R402, R403; 20_memory.md R103, R105). -/
def Obligations.BootConfiguresDevice : Prop :=
  ∀ (s : State) (d : Device) (w h rest : List Inputs),
    s.cfg.wf = true → s.core = CoreState.reset s.cfg → s.req = none → s.sched = w ++ h ++ rest →
    s.device = some d → d.txq.length = s.cfg.txLatency → quietQueue d = true → d.lockAt = s.cycle + w.length →
    (∀ i ∈ w ++ h, i.reset = false) → h.length = 2 * s.cfg.nbanks * (7 + s.cfg.txLatency) →
    (∀ i ∈ h.drop (h.length - (s.cfg.txLatency + 2)), i.csr.we = false) →
    (s.cfg.nbanks = 2 → 3 ≤ s.cfg.dieBit ∧ s.cfg.dieBit ≠ 11) →
    ∃ dev,
      (cycles (w.length + h.length) s).device = some dev ∧ dev.cr0a = s.cfg.cr0 ∧
      dev.cr0b = (if s.cfg.nbanks = 2 then s.cfg.cr0 else d.cr0b) ∧ dev.mem = d.mem ∧ dev.id0 = d.id0

/-- Only memory writes store: every other instruction leaves every byte of the reference device's memory as it was, started with the
Controller idle and nothing clocked on its way to the device, no other data command being offered (20_memory.md R104;
41_controller.md R236 to R238, R240; 43_registerspace.md R316 to R320). -/
def Obligations.OnlyMemoryWritesStore : Prop :=
  ∀ (s t : State) (d dev : Device) (i : Instr) (k : Nat), (∀ b a, i ≠ .memWr b a) →
    s.core.ctl.state = .idle → s.device = some d → quietQueue d = true → (∀ j ∈ s.sched, j.dp.cmdValid = false) →
    Sys2Proof.Machine.exec i s = .next t → t.device = some dev → memGet dev.mem k = memGet d.mem k
end

