-- ==== Sys2Proof/Laws/State.lean ====
section
/-! SUPPORT. One lemma per field per update, true by rfl, so that no later proof unfolds a record update. -/

namespace Sys2Proof.Laws

open Sys2Proof Sys2Proof.Machine Sys2Proof.Safety

section Controller

variable (c : Ctl) (st : CtlState) (n : Nat) (ca : CaPacket) (auto : Bool)

@[simp] theorem enter_state : (c.enter st n).state = st := rfl
@[simp] theorem enter_dlycnt : (c.enter st n).dlycnt = BitVec.ofNat 8 n := rfl
@[simp] theorem enter_ca : (c.enter st n).ca = c.ca := rfl
@[simp] theorem enter_autoTxn : (c.enter st n).autoTxn = c.autoTxn := rfl
@[simp] theorem enter_cfgPending : (c.enter st n).cfgPending = c.cfgPending := rfl
@[simp] theorem enter_cfgDie : (c.enter st n).cfgDie = c.cfgDie := rfl

@[simp] theorem launch_state : (c.launch ca auto).state = .caWord0 := rfl
@[simp] theorem launch_dlycnt : (c.launch ca auto).dlycnt = c.dlycnt := rfl
@[simp] theorem launch_ca : (c.launch ca auto).ca = ca := rfl
@[simp] theorem launch_autoTxn : (c.launch ca auto).autoTxn = auto := rfl
@[simp] theorem launch_cfgPending : (c.launch ca auto).cfgPending = c.cfgPending := rfl
@[simp] theorem launch_cfgDie : (c.launch ca auto).cfgDie = c.cfgDie := rfl

end Controller

section Latch

variable (r : Rs) (w : CsrWord)

@[simp] theorem latch_state : (r.latch w).state = r.state := rfl
@[simp] theorem latch_setupDone : (r.latch w).setupDone = r.setupDone := rfl
@[simp] theorem latch_strobePending : (r.latch w).strobePending = (r.strobePending || w.getLsbD 30) := rfl
@[simp] theorem latch_regValue : (r.latch w).regValue = w.extractLsb' 0 16 := rfl
@[simp] theorem latch_regNr : (r.latch w).regNr = w.extractLsb' 16 3 := rfl
@[simp] theorem latch_regType : (r.latch w).regType = w.extractLsb' 19 8 := rfl
@[simp] theorem latch_dieNr : (r.latch w).dieNr = w.extractLsb' 27 2 := rfl
@[simp] theorem latch_we : (r.latch w).we = w.getLsbD 29 := rfl

end Latch

section Advance

variable (cfg : Cfg) (s : CoreState) (i : Inputs)

@[simp] theorem advance_ctl : (s.advance cfg i).ctl = s.ctl.tick cfg (s.mpIn cfg i) i.phy := rfl
@[simp] theorem advance_xb : (s.advance cfg i).xb = s.xb.tick s.lockout (s.mpOut i).cmdReady (s.rs.port cfg).cmdValid := rfl
@[simp] theorem advance_rs : (s.advance cfg i).rs = s.rs.tick (s.rpOut i) i.csr := rfl

theorem tick_of_reset (h : i.reset = true) : s.tick cfg i = CoreState.reset cfg := by simp [CoreState.tick, h]

theorem tick_of_not_reset (h : i.reset = false) : s.tick cfg i = s.advance cfg i := by simp [CoreState.tick, h]

end Advance

section Clock

variable (s : State)

@[simp] theorem clock_cfg : s.clock.cfg = s.cfg := rfl
@[simp] theorem clock_core : s.clock.core = s.core.tick s.cfg s.inputs := rfl
@[simp] theorem clock_device : s.clock.device = s.device.map fun d => d.tick s.cfg s.cycle s.outputs.bus := rfl
@[simp] theorem clock_sched : s.clock.sched = s.sched.tail := rfl
@[simp] theorem clock_req : s.clock.req = s.reqAfter := rfl
@[simp] theorem clock_cycle : s.clock.cycle = s.cycle + 1 := rfl
@[simp] theorem clock_trace : s.clock.trace = s.trace ++ [{ inp := s.inputs, out := s.outputs }] := rfl

end Clock

section Reset

variable (c : Cfg)

@[simp] theorem resetWith_cfg : (State.resetWith c).cfg = c := rfl
@[simp] theorem resetWith_core : (State.resetWith c).core = CoreState.reset c := rfl
@[simp] theorem resetWith_device : (State.resetWith c).device = some (Device.reset c) := rfl
@[simp] theorem resetWith_sched : (State.resetWith c).sched = [] := rfl
@[simp] theorem resetWith_req : (State.resetWith c).req = none := rfl
@[simp] theorem resetWith_cycle : (State.resetWith c).cycle = 0 := rfl
@[simp] theorem resetWith_trace : (State.resetWith c).trace = [] := rfl

@[simp] theorem reset_ctl : (CoreState.reset c).ctl = Ctl.reset c := rfl
@[simp] theorem reset_xb : (CoreState.reset c).xb = { regSelect := true } := rfl
@[simp] theorem reset_rs : (CoreState.reset c).rs = Rs.reset c := rfl

end Reset

section Present

variable (i : Inputs) (r : Option Request)

theorem present_reset : (i.present r).reset = i.reset := by
  unfold Inputs.present; split <;> rfl

theorem present_phy : (i.present r).phy = i.phy := by
  unfold Inputs.present; split <;> rfl

theorem present_wdata : (i.present r).dp.wdataValid = i.dp.wdataValid ∧ (i.present r).dp.wdata = i.dp.wdata := by
  unfold Inputs.present; split <;> exact ⟨rfl, rfl⟩

theorem present_rdata : (i.present r).dp.rdataReady = i.dp.rdataReady ∧ (i.present r).dp.rdataLast = i.dp.rdataLast := by
  unfold Inputs.present; split <;> exact ⟨rfl, rfl⟩

@[simp] theorem present_none : i.present none = i := rfl
@[simp] theorem present_csrRead : i.present (some .csrRead) = i := rfl

end Present

end Sys2Proof.Laws
end

