-- ==== Sys2Proof/Laws/Clock.lean ====
section
/-! SUPPORT. Runs of cycles: what `cycles`, `runWhile` and the schedule have to do with each other, and the machine's run as a run of
CORE over the inputs applied to it. -/

namespace Sys2Proof.Laws

open Sys2Proof Sys2Proof.Machine Sys2Proof.Safety

/-! ## `cycles` -/

@[simp] theorem cycles_zero (s : State) : cycles 0 s = s := rfl

@[simp] theorem cycles_succ (n : Nat) (s : State) : cycles (n + 1) s = cycles n s.clock := rfl

theorem cycles_add (m n : Nat) (s : State) : cycles (m + n) s = cycles n (cycles m s) := by
  induction m generalizing s with
  | zero => simp
  | succ m ih => rw [Nat.succ_add, cycles_succ, ih, cycles_succ]

theorem cycles_succ' (n : Nat) (s : State) : cycles (n + 1) s = (cycles n s).clock := by
  rw [cycles_add]; rfl

@[simp] theorem cycles_cfg (n : Nat) (s : State) : (cycles n s).cfg = s.cfg := by
  induction n generalizing s with
  | zero => rfl
  | succ n ih => rw [cycles_succ, ih, clock_cfg]

@[simp] theorem cycles_cycle (n : Nat) (s : State) : (cycles n s).cycle = s.cycle + n := by
  induction n generalizing s with
  | zero => rfl
  | succ n ih => rw [cycles_succ, ih, clock_cycle]; omega

@[simp] theorem cycles_sched (n : Nat) (s : State) : (cycles n s).sched = s.sched.drop n := by
  induction n generalizing s with
  | zero => rfl
  | succ n ih => rw [cycles_succ, ih, clock_sched, List.drop_tail]

/-! ## `runWhile` -/

/-- Once the condition fails, the run stops. -/
theorem runWhile_stop {busy : State → Bool} {s : State} (h : busy s = false) (n : Nat) : runWhile busy n s = s := by
  cases n <;> simp [runWhile, h]

theorem runWhile_step {busy : State → Bool} {s : State} (h : busy s = true) (n : Nat) :
    runWhile busy (n + 1) s = runWhile busy n s.clock := by
  simp [runWhile, h]

/-- A run that stays busy for `m` cycles and then is not. -/
theorem runWhile_eq_cycles {busy : State → Bool} {s : State} {m n : Nat} (hb : ∀ k, k < m → busy (cycles k s) = true)
    (hs : busy (cycles m s) = false) (hn : m ≤ n) : runWhile busy n s = cycles m s := by
  induction m generalizing s n with
  | zero => exact runWhile_stop hs n
  | succ m ih =>
    obtain ⟨n, rfl⟩ : ∃ n', n = n' + 1 := ⟨n - 1, by omega⟩
    rw [runWhile_step (by simpa using hb 0 (by omega)), cycles_succ]
    exact ih (fun k hk => by simpa using hb (k + 1) (by omega)) (by simpa using hs) (by omega)

/-- A run is some number of cycles. -/
theorem runWhile_is_cycles (busy : State → Bool) (n : Nat) (s : State) :
    ∃ m, m ≤ n ∧ runWhile busy n s = cycles m s := by
  induction n generalizing s with
  | zero => exact ⟨0, Nat.le_refl 0, rfl⟩
  | succ n ih =>
    by_cases h : busy s = true
    · obtain ⟨m, hm, e⟩ := ih s.clock
      exact ⟨m + 1, by omega, by rw [runWhile_step h, e, cycles_succ]⟩
    · exact ⟨0, by omega, runWhile_stop (by simpa using h) _⟩

/-- What every cycle keeps, every number of cycles keeps. -/
theorem cycles_induction {P : State → Prop} (hP : ∀ s, P s → P s.clock) (n : Nat) {s : State} (h : P s) : P (cycles n s) := by
  induction n generalizing s with
  | zero => exact h
  | succ n ih => exact ih (hP s h)

theorem runWhile_induction {P : State → Prop} (hP : ∀ s, P s → P s.clock) (busy : State → Bool) (n : Nat) {s : State}
    (h : P s) : P (runWhile busy n s) := by
  obtain ⟨m, -, e⟩ := runWhile_is_cycles busy n s
  rw [e]
  exact cycles_induction hP m h

/-! ## The machine's run as a run of CORE -/

/-- The inputs applied in the coming `n` cycles. -/
def applied : Nat → State → List Inputs
  | 0, _ => []
  | n + 1, s => s.inputs :: applied n s.clock

/-- CORE's outputs along a run. -/
def coreOut (cfg : Cfg) : CoreState → List Inputs → List Outputs
  | _, [] => []
  | c, i :: is => c.outputs cfg i :: coreOut cfg (c.tick cfg i) is

/-- What is observed along a run. -/
def coreObs (cfg : Cfg) : CoreState → List Inputs → List Obs
  | _, [] => []
  | c, i :: is => { inp := i, out := c.outputs cfg i } :: coreObs cfg (c.tick cfg i) is

@[simp] theorem applied_length (n : Nat) (s : State) : (applied n s).length = n := by
  induction n generalizing s with
  | zero => rfl
  | succ n ih => simp [applied, ih]

theorem applied_add (m n : Nat) (s : State) : applied (m + n) s = applied m s ++ applied n (cycles m s) := by
  induction m generalizing s with
  | zero => simp [applied]
  | succ m ih => rw [Nat.succ_add, applied, ih, applied, cycles_succ, List.cons_append]

/-- CORE runs on the inputs applied to it, whatever the environment is. -/
theorem cycles_core (n : Nat) (s : State) : (cycles n s).core = coreRun s.cfg s.core (applied n s) := by
  induction n generalizing s with
  | zero => rfl
  | succ n ih => rw [cycles_succ, ih, applied, coreRun, clock_cfg, clock_core]

theorem cycles_trace (n : Nat) (s : State) : (cycles n s).trace = s.trace ++ coreObs s.cfg s.core (applied n s) := by
  induction n generalizing s with
  | zero => simp [applied, coreObs]
  | succ n ih =>
    rw [cycles_succ, ih, applied, coreObs, clock_cfg, clock_core, clock_trace, List.append_assoc]
    rfl

/-- The device after a run: fed what CORE drove. -/
theorem cycles_device (n : Nat) (s : State) :
    (cycles n s).device = s.device.map fun d => deviceAfter s.cfg s.cycle d (busOf (coreObs s.cfg s.core (applied n s))) := by
  induction n generalizing s with
  | zero => cases h : s.device <;> simp [applied, coreObs, busOf, deviceAfter, h]
  | succ n ih =>
    rw [cycles_succ, ih, clock_device, clock_cfg, clock_cycle, clock_core]
    cases s.device <;> rfl

theorem coreRun_append (cfg : Cfg) (c : CoreState) (is js : List Inputs) :
    coreRun cfg c (is ++ js) = coreRun cfg (coreRun cfg c is) js := by
  induction is generalizing c with
  | nil => rfl
  | cons i is ih => rw [List.cons_append, coreRun, ih, coreRun]

theorem coreObs_append (cfg : Cfg) (c : CoreState) (is js : List Inputs) :
    coreObs cfg c (is ++ js) = coreObs cfg c is ++ coreObs cfg (coreRun cfg c is) js := by
  induction is generalizing c with
  | nil => rfl
  | cons i is ih => rw [List.cons_append, coreObs, ih, coreObs, coreRun, List.cons_append]

@[simp] theorem busOf_append (a b : List Obs) : busOf (a ++ b) = busOf a ++ busOf b := List.map_append

@[simp] theorem busyOf_append (a b : List Obs) : busyOf (a ++ b) = busyOf a ++ busyOf b := List.map_append

@[simp] theorem takenByData_append (a b : List Obs) : takenByData (a ++ b) = takenByData a ++ takenByData b :=
  List.filterMap_append

@[simp] theorem handedByData_append (a b : List Obs) : handedByData (a ++ b) = handedByData a ++ handedByData b :=
  List.filterMap_append

/-! ## What the schedule applies -/

/-- The cycle's inputs are the scheduled ones but for the PHY's, when no request is presented. -/
theorem inputs_of_cons {s : State} {i : Inputs} {is : List Inputs} (hs : s.sched = i :: is) (hr : s.req = none) :
    s.inputs = { i with phy := s.phyIn } := by
  simp [State.inputs, State.scheduled, hs, hr]

theorem phyIn_of_none {s : State} {i : Inputs} {is : List Inputs} (hs : s.sched = i :: is) (hd : s.device = none) :
    s.phyIn = i.phy := by
  simp [State.phyIn, State.scheduled, hs, hd]

@[simp] theorem reqAfter_none {s : State} (h : s.req = none) : s.reqAfter = none := by
  simp [State.reqAfter, h]

@[simp] theorem cycles_req_none (n : Nat) {s : State} (h : s.req = none) : (cycles n s).req = none :=
  cycles_induction (P := fun s => s.req = none) (fun s h => by simp [h]) n h

@[simp] theorem cycles_device_none (n : Nat) {s : State} (h : s.device = none) : (cycles n s).device = none :=
  cycles_induction (P := fun s => s.device = none) (fun s h => by simp [h]) n h

/-- With no device and no request, the scheduled inputs are applied as they are. -/
theorem applied_of_none {s : State} (is : List Inputs) {rest : List Inputs} (hs : s.sched = is ++ rest) (hr : s.req = none)
    (hd : s.device = none) : applied is.length s = is := by
  induction is generalizing s with
  | nil => rfl
  | cons i is ih =>
    rw [List.cons_append] at hs
    simp only [List.length_cons, applied]
    rw [inputs_of_cons hs hr, phyIn_of_none hs hd]
    rw [ih (s := s.clock) (by simp [hs]) (by simp [hr]) (by simp [hd])]

/-- With no request, what is applied differs from the schedule in the PHY's inputs at most, and the PHY is locked when it is said to
be. -/
theorem applied_of_sched {s : State} (is : List Inputs) {rest : List Inputs} (hs : s.sched = is ++ rest) (hr : s.req = none) :
    List.Forall₂ (fun i a => ∃ p : PhyIn, a = { i with phy := p }) is (applied is.length s) := by
  induction is generalizing s with
  | nil => exact List.Forall₂.nil
  | cons i is ih =>
    rw [List.cons_append] at hs
    simp only [List.length_cons, applied]
    exact List.Forall₂.cons ⟨s.phyIn, inputs_of_cons hs hr⟩ (ih (s := s.clock) (by simp [hs]) (by simp [hr]))

end Sys2Proof.Laws
end

