-- ==== Sys2Proof/Laws/Construct.lean ====
section
/-! SUPPORT. What construction can answer (40_configuration.md R162, R173). -/

namespace Sys2Proof.Laws

open Sys2Proof

theorem mem_order (e : ConfigurationError) : e ∈ ConfigurationError.order := by cases e <;> decide

theorem order_nodup : ConfigurationError.order.Nodup := by decide

/-- An accepted configuration is the inputs' record, and no check fires on them. -/
theorem construct_ok {i : ConstructInputs} {c : Cfg} (h : construct i = .ok c) : (∀ e, i.fires e = false) ∧ c = i.cfg := by
  unfold construct at h
  split at h
  · cases h
  · rename_i hn
    rw [List.find?_eq_none] at hn
    exact ⟨fun e => by simpa using hn e (mem_order e), by cases h; rfl⟩

/-- The error reported is a check that fires. -/
theorem construct_error {i : ConstructInputs} {e : ConfigurationError} (h : construct i = .error e) : i.fires e = true := by
  unfold construct at h
  split at h
  · rename_i he
    cases h
    exact List.find?_some he
  · cases h

theorem isPowerOfTwo_iff (n : Nat) : isPowerOfTwo n = true ↔ ∃ a, n = 2 ^ a := by
  simp only [isPowerOfTwo, Bool.and_eq_true, decide_eq_true_eq, beq_iff_eq]
  constructor
  · rintro ⟨_, h⟩; exact ⟨_, h.symm⟩
  · rintro ⟨a, rfl⟩; exact ⟨by positivity, by rw [Nat.log2_two_pow]⟩

end Sys2Proof.Laws
end

