-- ==== Sys2Proof/Laws/Operands.lean ====
section
/-! SUPPORT. The bit fields of the encodings, read back: what each accessor gives on a packet or word that was put together. -/

namespace Sys2Proof.Laws

open Sys2Proof Sys2Proof.Machine

/-! ## The command-address packet -/

@[simp] theorem caRead_caOf (c : Cmd) : caRead (caOf c) = !c.we := by
  simp only [caRead, caOf, BitVec.getLsbD_append]
  cases c.we <;> simp

@[simp] theorem caReg_caOf (c : Cmd) : caReg (caOf c) = c.aspace := by
  simp only [caReg, caOf, BitVec.getLsbD_append]
  cases c.aspace <;> simp

@[simp] theorem caLinear_caOf (c : Cmd) : caLinear (caOf c) = c.burst := by
  simp only [caLinear, caOf, BitVec.getLsbD_append]
  cases c.burst <;> simp

theorem caOf_reserved (c : Cmd) : (caOf c).extractLsb' 3 13 = 0#13 := by
  apply BitVec.eq_of_getLsbD_eq
  intro i hi
  simp only [caOf, BitVec.getLsbD_extractLsb', BitVec.getLsbD_append, BitVec.getLsbD_zero]
  have h1 : ¬ 3 + i < 3 := by omega
  have h2 : 3 + i - 3 < 13 := by omega
  simp [h1, hi]

@[simp] theorem caAddr_caOf (c : Cmd) : caAddr (caOf c) = c.addr := by
  apply BitVec.eq_of_getLsbD_eq
  intro i hi
  simp only [caAddr, caOf, BitVec.getLsbD_extractLsb', BitVec.getLsbD_append]
  by_cases h : i < 3
  · simp [h]
  · have e : 16 + (i - 3) - 3 - 13 = i - 3 := by omega
    have h1 : ¬ 16 + (i - 3) < 3 := by omega
    have h2 : ¬ 16 + (i - 3) - 3 < 13 := by omega
    have h3 : i - 3 < 29 := by omega
    simp only [h, if_false, h1, h2, e, h3]
    rw [show 3 + (i - 3) = i by omega]
    simp

theorem caWords_join (ca : CaPacket) : caHi ca ++ caMid ca ++ caLo ca = ca := by
  apply BitVec.eq_of_getLsbD_eq
  intro i hi
  simp only [caHi, caMid, caLo, BitVec.getLsbD_append, BitVec.getLsbD_extractLsb']
  by_cases h : i < 16
  · simp [h]
  · by_cases h' : i - 16 < 16
    · rw [if_neg h, if_pos h', show 16 + (i - 16) = i by omega]
      simp [h']
    · rw [if_neg h, if_neg h', show 32 + (i - 16 - 16) = i by omega]
      have : i - 16 - 16 < 16 := by omega
      simp [this]

/-! ## The `cmd` and `wdata` items -/

@[simp] theorem ofWord_toWord (c : Cmd) : Cmd.ofWord c.toWord = c := by
  obtain ⟨we, aspace, burst, addr⟩ := c
  simp only [Cmd.ofWord, Cmd.toWord, Cmd.mk.injEq, BitVec.getLsbD_append]
  refine ⟨?_, ?_, ?_, ?_⟩
  · cases we <;> simp
  · cases aspace <;> simp
  · cases burst <;> simp
  · apply BitVec.eq_of_getLsbD_eq
    intro i hi
    simp only [BitVec.getLsbD_extractLsb', BitVec.getLsbD_append]
    simp [hi]

theorem toWord_ofWord (w : CmdWord) : (Cmd.ofWord w).toWord = w := by
  apply BitVec.eq_of_getLsbD_eq
  intro i hi
  simp only [Cmd.ofWord, Cmd.toWord, BitVec.getLsbD_append, BitVec.getLsbD_extractLsb']
  by_cases h : i < 32
  · simp [h]
  · obtain rfl | rfl | rfl : i = 32 ∨ i = 33 ∨ i = 34 := by omega
    all_goals simp

@[simp] theorem item_ofWord_toWord (i : WItem) : WItem.ofWord i.toWord = i := by
  obtain ⟨data, we, last⟩ := i
  simp only [WItem.ofWord, WItem.toWord, WItem.mk.injEq, BitVec.getLsbD_append]
  refine ⟨?_, ?_, ?_⟩
  · apply BitVec.eq_of_getLsbD_eq
    intro i hi
    simp only [BitVec.getLsbD_extractLsb', BitVec.getLsbD_append]
    simp [hi]
  · apply BitVec.eq_of_getLsbD_eq
    intro i hi
    have h : ¬ 16 + i < 16 := by omega
    simp only [BitVec.getLsbD_extractLsb', BitVec.getLsbD_append]
    simp [hi]
  · cases last <;> simp

/-! ## The CSR word -/

section CsrWord

variable (busy strobe we : Bool) (die : BitVec 2) (type : BitVec 8) (nr : BitVec 3) (value : HalfWord)

theorem csrWord_busy : (csrWordOf busy strobe we die type nr value).getLsbD 31 = busy := by
  simp only [csrWordOf, BitVec.getLsbD_append]
  cases busy <;> simp

@[simp] theorem csrWord_busy_getElem : (csrWordOf busy strobe we die type nr value)[31] = busy :=
  csrWord_busy busy strobe we die type nr value

theorem csrWord_strobe : (csrWordOf busy strobe we die type nr value).getLsbD 30 = strobe := by
  simp only [csrWordOf, BitVec.getLsbD_append]
  cases strobe <;> simp

@[simp] theorem csrWord_strobe_getElem : (csrWordOf busy strobe we die type nr value)[30] = strobe :=
  csrWord_strobe busy strobe we die type nr value

theorem csrWord_we : (csrWordOf busy strobe we die type nr value).getLsbD 29 = we := by
  simp only [csrWordOf, BitVec.getLsbD_append]
  cases we <;> simp

@[simp] theorem csrWord_we_getElem : (csrWordOf busy strobe we die type nr value)[29] = we :=
  csrWord_we busy strobe we die type nr value

@[simp] theorem csrWord_die : (csrWordOf busy strobe we die type nr value).extractLsb' 27 2 = die := by
  apply BitVec.eq_of_getLsbD_eq
  intro i hi
  simp only [csrWordOf, BitVec.getLsbD_extractLsb', BitVec.getLsbD_append]
  obtain rfl | rfl : i = 0 ∨ i = 1 := by omega
  all_goals simp

@[simp] theorem csrWord_type : (csrWordOf busy strobe we die type nr value).extractLsb' 19 8 = type := by
  apply BitVec.eq_of_getLsbD_eq
  intro i hi
  have h1 : ¬ 19 + i < 16 := by omega
  have h2 : ¬ 19 + i - 16 < 3 := by omega
  have h3 : 19 + i - 16 - 3 = i := by omega
  simp only [csrWordOf, BitVec.getLsbD_extractLsb', BitVec.getLsbD_append]
  simp [hi, h1, h2, h3]

@[simp] theorem csrWord_nr : (csrWordOf busy strobe we die type nr value).extractLsb' 16 3 = nr := by
  apply BitVec.eq_of_getLsbD_eq
  intro i hi
  simp only [csrWordOf, BitVec.getLsbD_extractLsb', BitVec.getLsbD_append]
  simp [hi]

@[simp] theorem csrWord_value : (csrWordOf busy strobe we die type nr value).extractLsb' 0 16 = value := by
  apply BitVec.eq_of_getLsbD_eq
  intro i hi
  simp only [csrWordOf, BitVec.getLsbD_extractLsb', BitVec.getLsbD_append]
  simp [hi]

end CsrWord

/-- A CSR word is its fields. -/
theorem csrWord_eta (w : CsrWord) :
    csrWordOf (w.getLsbD 31) (w.getLsbD 30) (w.getLsbD 29) (w.extractLsb' 27 2) (w.extractLsb' 19 8) (w.extractLsb' 16 3)
      (w.extractLsb' 0 16) = w := by
  apply BitVec.eq_of_getLsbD_eq
  intro i hi
  simp only [csrWordOf, BitVec.getLsbD_append, BitVec.getLsbD_extractLsb']
  by_cases h0 : i < 16
  · simp [h0]
  by_cases h1 : i < 19
  · have a : i - 16 < 3 := by omega
    have b : 16 + (i - 16) = i := by omega
    simp [h0, a, b]
  by_cases h2 : i < 27
  · have a : ¬ i - 16 < 3 := by omega
    have b : i - 16 - 3 < 8 := by omega
    have c : 19 + (i - 16 - 3) = i := by omega
    simp [h0, a, b, c]
  obtain rfl | rfl | rfl | rfl | rfl : i = 27 ∨ i = 28 ∨ i = 29 ∨ i = 30 ∨ i = 31 := by omega
  all_goals simp

/-! ## Bytes -/

theorem bytesToNat_natToBytes (n w : Nat) : bytesToNat (natToBytes n w) = w % 2 ^ (8 * n) := by
  induction n generalizing w with
  | zero => simp [natToBytes, bytesToNat, Nat.mod_one]
  | succ n ih =>
    rw [natToBytes, bytesToNat, ih, BitVec.toNat_ofNat, show 8 * (n + 1) = 8 + 8 * n by omega, Nat.pow_add,
      Nat.mod_mul]

@[simp] theorem natToBytes_length (n w : Nat) : (natToBytes n w).length = n := by
  induction n generalizing w with
  | zero => rfl
  | succ n ih => simp [natToBytes, ih]

end Sys2Proof.Laws
end

