-- ==== Sys2Proof/Laws/Controller.lean ====
section
/-! SUPPORT. Runs of the Controller on its own: the counter, the opening of each path, the data cycles, and the end of a write
(41_controller.md R195, R228 to R231). -/

namespace Sys2Proof.Laws

open Sys2Proof Sys2Proof.Machine Sys2Proof.Safety

/-- The Controller through a list of cycles, by what its port and the PHY give it. -/
def ctlRun (cfg : Cfg) : Ctl → List (PortIn × PhyIn) → Ctl
  | c, [] => c
  | c, i :: is => ctlRun cfg (c.tick cfg i.1 i.2) is

/-- What the Controller drives in the cycles. -/
def ctlBus (cfg : Cfg) : Ctl → List (PortIn × PhyIn) → List BusOut
  | _, [] => []
  | c, i :: is => c.bus cfg i.1 :: ctlBus cfg (c.tick cfg i.1 i.2) is

theorem ctlRun_append (cfg : Cfg) (c : Ctl) (is js : List (PortIn × PhyIn)) :
    ctlRun cfg c (is ++ js) = ctlRun cfg (ctlRun cfg c is) js := by
  induction is generalizing c with
  | nil => rfl
  | cons i is ih => exact ih _

theorem ctlBus_append (cfg : Cfg) (c : Ctl) (is js : List (PortIn × PhyIn)) :
    ctlBus cfg c (is ++ js) = ctlBus cfg c is ++ ctlBus cfg (ctlRun cfg c is) js := by
  induction is generalizing c with
  | nil => rfl
  | cons i is ih => simp only [List.cons_append, ctlBus, ctlRun, ih]

@[simp] theorem ctlBus_length (cfg : Cfg) (c : Ctl) (is : List (PortIn × PhyIn)) : (ctlBus cfg c is).length = is.length := by
  induction is generalizing c with
  | nil => rfl
  | cons i is ih => simp [ctlBus, ih]

theorem gate_iff (c : Ctl) : c.gate = true ↔ c.dlycnt = 0#8 := by simp [Ctl.gate]

theorem tick_of_gate {cfg : Cfg} {c : Ctl} (h : c.gate = true) (mp : PortIn) (phy : PhyIn) :
    c.tick cfg mp phy = c.tickOpen cfg mp phy := by simp [Ctl.tick, h]

theorem tick_of_not_gate {cfg : Cfg} {c : Ctl} (h : c.gate = false) (mp : PortIn) (phy : PhyIn) :
    c.tick cfg mp phy = { c with dlycnt := c.dlycnt - 1#8 } := by simp [Ctl.tick, h]

/-! ## The counter -/

theorem gate_ofNat {c : Ctl} {n : Nat} (hc : c.dlycnt = BitVec.ofNat 8 n) (hn : n < 256) : c.gate = decide (n = 0) := by
  rw [Ctl.gate, hc]
  by_cases h : n = 0
  · subst h; rfl
  · have : BitVec.ofNat 8 n ≠ 0#8 := by
      intro e
      have := congrArg BitVec.toNat e
      simp at this
      omega
    simp [h, this]

/-- The counter runs down, and nothing else changes (41_controller.md R195). -/
theorem ctlRun_countdown (cfg : Cfg) (c : Ctl) (is : List (PortIn × PhyIn)) (h : c.dlycnt = BitVec.ofNat 8 is.length)
    (hn : is.length < 256) : ctlRun cfg c is = { c with dlycnt := 0#8 } := by
  induction is generalizing c with
  | nil => simp only [ctlRun]; rw [show 0#8 = c.dlycnt from h.symm]
  | cons i is ih =>
    rw [List.length_cons] at h hn
    have hg : c.gate = false := by rw [gate_ofNat h hn]; simp
    rw [ctlRun, tick_of_not_gate hg, ih]
    · simp only [h]
      rw [BitVec.ofNat_add, BitVec.add_sub_cancel]
    · omega

/-- While the counter runs, the bus shows the state's value without the gate. -/
theorem ctlBus_countdown (cfg : Cfg) (c : Ctl) (is : List (PortIn × PhyIn)) (b : BusOut)
    (h : c.dlycnt = BitVec.ofNat 8 is.length) (hn : is.length < 256)
    (hb : ∀ d mp, Ctl.gate { c with dlycnt := d } = false → Ctl.bus cfg { c with dlycnt := d } mp = b) :
    ctlBus cfg c is = List.replicate is.length b := by
  induction is generalizing c with
  | nil => rfl
  | cons i is ih =>
    rw [List.length_cons] at h hn
    have hg : c.gate = false := by rw [gate_ofNat h hn]; simp
    rw [ctlBus, tick_of_not_gate hg, List.length_cons, List.replicate_succ, hb c.dlycnt i.1 hg, ih]
    · simp only [h]
      rw [BitVec.ofNat_add, BitVec.add_sub_cancel]
    · omega
    · exact fun d mp hd => hb d mp hd

/-! ## The packet -/

/-- The three command-address cycles (41_controller.md R201 to R203). -/
theorem ctlRun_packet (cfg : Cfg) (c : Ctl) (i j k : PortIn × PhyIn) (hs : c.state = .caWord0) (hg : c.dlycnt = 0#8) :
    ctlRun cfg c [i, j, k] = { c with state := .selectOp } ∧ ctlBus cfg c [i, j, k] = caCycles c.ca := by
  obtain ⟨state, dlycnt, ca, autoTxn, cfgPending, cfgDie⟩ := c
  simp only at hs hg
  subst hs; subst hg
  exact ⟨rfl, rfl⟩

/-! ## A memory write up to its data (41_controller.md R206, R208, R210, R229) -/

/-- The loads of an accepted configuration fit the counter (40_configuration.md R170). -/
structure LoadsFit (cfg : Cfg) : Prop where
  sel : cfg.selDly < 256
  endw : cfg.endwDly < 256
  wlat : ∀ long, (cfg.wlat long).toNat < 256
  rlat : ∀ long, (cfg.rlat long).toNat < 256

/-- An accepted configuration has one lane (40_configuration.md R161, `E9_WIDE`). -/
theorem lanes_of_wf {cfg : Cfg} (h : cfg.wf = true) : cfg.lanes = .one := by
  simp only [Cfg.wf, Bool.and_eq_true, beq_iff_eq] at h
  exact h.1.1.1.1.1.1

theorem fixedOffset_eq {cfg : Cfg} (h : cfg.wf = true) : cfg.fixedOffset = 3 + (cfg.txLatency + cfg.rxLatency - 2) := by
  rw [Cfg.fixedOffset, lanes_of_wf h]
  rfl

theorem selDly_eq (cfg : Cfg) : cfg.selDly = cfg.txLatency + cfg.rxLatency - 2 := rfl

theorem loadsFit_of_wf {cfg : Cfg} (h : cfg.wf = true) : LoadsFit cfg := by
  have hf := fixedOffset_eq h
  simp only [Cfg.wf, Bool.and_eq_true, Bool.or_eq_true, decide_eq_true_eq] at h
  obtain ⟨⟨⟨⟨-, h3⟩, h7⟩, -⟩, h6⟩ := h
  rw [hf] at h6
  refine ⟨?_, ?_, ?_, ?_⟩
  · rw [selDly_eq]; omega
  · unfold Cfg.endwDly; omega
  · intro long
    unfold Cfg.wlat Cfg.lat
    split <;> omega
  · intro long
    unfold Cfg.rlat Cfg.wlat Cfg.lat
    rw [hf]
    split <;> omega

/-- The latency that is used is no shorter than the fixed offset (40_configuration.md R159, R161). -/
theorem fixedOffset_le_lat {cfg : Cfg} (h : cfg.wf = true) (phy : PhyIn) :
    cfg.fixedOffset ≤ cfg.lat (longLatency cfg phy) := by
  simp only [Cfg.wf, Bool.and_eq_true, Bool.or_eq_true, decide_eq_true_eq, beq_iff_eq] at h
  obtain ⟨⟨⟨⟨-, h3⟩, h7⟩, h5⟩, h6⟩ := h
  unfold Cfg.lat
  split
  · omega
  · rename_i hl
    obtain h5 | h5 := h5
    · simp [longLatency, h5] at hl
    · omega

/-- The load of the write count that is used: the latency less the fixed offset (40_configuration.md R167). -/
theorem wlat_toNat {cfg : Cfg} (h : cfg.wf = true) (phy : PhyIn) :
    (cfg.wlat (longLatency cfg phy)).toNat + cfg.fixedOffset = cfg.lat (longLatency cfg phy) := by
  have := fixedOffset_le_lat h phy
  unfold Cfg.wlat
  omega

/-- The load of the read count that is used: the write count and both PHY latencies (40_configuration.md R168). -/
theorem rlat_toNat {cfg : Cfg} (h : cfg.wf = true) (phy : PhyIn) :
    (cfg.rlat (longLatency cfg phy)).toNat + cfg.fixedOffset
      = cfg.lat (longLatency cfg phy) + cfg.txLatency + cfg.rxLatency := by
  have := fixedOffset_le_lat h phy
  unfold Cfg.rlat Cfg.wlat
  omega

/-- A delay state: its counter runs down, the latency indicator is sampled in the gated cycle, and the data state's counter runs
down (41_controller.md R208, R216). -/
theorem ctlRun_delay (cfg : Cfg) (c : Ctl) (pre : List (PortIn × PhyIn)) (m : PortIn × PhyIn) (cnt : List (PortIn × PhyIn))
    (st : CtlState) (load : Nat) (hd : c.dlycnt = BitVec.ofNat 8 pre.length) (hp : pre.length < 256)
    (ht : Ctl.tickOpen cfg { c with dlycnt := 0#8 } m.1 m.2 = Ctl.enter { c with dlycnt := 0#8 } st load)
    (hl : cnt.length = load) (hc : load < 256) :
    ctlRun cfg c (pre ++ m :: cnt) = { c with state := st, dlycnt := 0#8 } := by
  rw [ctlRun_append, ctlRun_countdown cfg c pre hd hp, ctlRun, tick_of_gate (by simp [Ctl.gate]), ht,
    ctlRun_countdown cfg _ cnt (by simp [hl]) (by omega)]
  rfl

/-- The bus of a delay state. -/
theorem ctlBus_delay (cfg : Cfg) (c : Ctl) (pre : List (PortIn × PhyIn)) (m : PortIn × PhyIn) (cnt : List (PortIn × PhyIn))
    (st : CtlState) (load : Nat) (b : BusOut) (hd : c.dlycnt = BitVec.ofNat 8 pre.length) (hp : pre.length < 256)
    (ht : Ctl.tickOpen cfg { c with dlycnt := 0#8 } m.1 m.2 = Ctl.enter { c with dlycnt := 0#8 } st load)
    (hl : cnt.length = load) (hc : load < 256)
    (h1 : ∀ d mp, Ctl.bus cfg { c with dlycnt := d } mp = b)
    (h2 : ∀ d mp, Ctl.gate { c with state := st, dlycnt := d } = false → Ctl.bus cfg { c with state := st, dlycnt := d } mp = b) :
    ctlBus cfg c (pre ++ m :: cnt) = List.replicate (pre.length + 1 + cnt.length) b := by
  rw [ctlBus_append, ctlRun_countdown cfg c pre hd hp, ctlBus, tick_of_gate (by simp [Ctl.gate]), ht,
    ctlBus_countdown cfg c pre b hd hp (fun d mp _ => h1 d mp), h1,
    ctlBus_countdown cfg _ cnt b (by simp [hl]) (by omega) (fun d mp hg => h2 d mp hg)]
  rw [← List.replicate_succ, List.replicate_append_replicate]
  congr 1
  omega

/-! ## The data cycles -/

/-- `WRITE` and `WRITE_REG` stay until the word with `last` is transferred (41_controller.md R210, R212). -/
theorem ctlRun_stream (cfg : Cfg) (c : Ctl) (ws : List (PortIn × PhyIn)) (w : PortIn × PhyIn)
    (hs : c.state = .write ∨ c.state = .writeReg) (hg : c.dlycnt = 0#8)
    (hws : ∀ x ∈ ws, (x.1.wdataValid && x.1.wdata.last) = false) (hw : (w.1.wdataValid && w.1.wdata.last) = true) :
    ctlRun cfg c (ws ++ [w]) = c.enter .endWrite cfg.endwDly := by
  have ht : ∀ x : PortIn × PhyIn, c.tick cfg x.1 x.2 = c.tickStream cfg x.1 := by
    intro x
    rw [tick_of_gate (by simp [Ctl.gate, hg])]
    obtain hs | hs := hs <;> simp [Ctl.tickOpen, hs]
  induction ws with
  | nil => simp [ctlRun, ht, Ctl.tickStream, hw]
  | cons x ws ih =>
    have : c.tickStream cfg x.1 = c := by simp only [Ctl.tickStream, hws x (by simp)]; rfl
    rw [List.cons_append, ctlRun, ht, this]
    exact ih fun y hy => hws y (by simp [hy])

/-- What `WRITE` or `WRITE_REG` drives, word by word. -/
theorem ctlBus_stream (cfg : Cfg) (c : Ctl) (ws : List (PortIn × PhyIn)) (w : PortIn × PhyIn) (f : PortIn → BusOut)
    (hs : c.state = .write ∨ c.state = .writeReg) (hg : c.dlycnt = 0#8)
    (hws : ∀ x ∈ ws, (x.1.wdataValid && x.1.wdata.last) = false) (hf : ∀ mp, c.bus cfg mp = f mp) :
    ctlBus cfg c (ws ++ [w]) = (ws ++ [w]).map fun x => f x.1 := by
  have ht : ∀ x : PortIn × PhyIn, c.tick cfg x.1 x.2 = c.tickStream cfg x.1 := by
    intro x
    rw [tick_of_gate (by simp [Ctl.gate, hg])]
    obtain hs | hs := hs <;> simp [Ctl.tickOpen, hs]
  induction ws with
  | nil => simp [ctlBus, hf]
  | cons x ws ih =>
    have : c.tickStream cfg x.1 = c := by simp only [Ctl.tickStream, hws x (by simp)]; rfl
    rw [List.cons_append, ctlBus, ht, this, hf, ih fun y hy => hws y (by simp [hy])]
    rfl

/-- `READ` stays until a word is transferred with the consumer's `last` (41_controller.md R218). -/
theorem ctlRun_read (cfg : Cfg) (c : Ctl) (ws : List (PortIn × PhyIn)) (w : PortIn × PhyIn) (hs : c.state = .read)
    (hg : c.dlycnt = 0#8) (hws : ∀ x ∈ ws, (x.2.rwdsIn.getLsbD 1 && x.1.rdataReady && x.1.rdataLast) = false)
    (hw : (w.2.rwdsIn.getLsbD 1 && w.1.rdataReady && w.1.rdataLast) = true) :
    ctlRun cfg c (ws ++ [w]) = { c with state := .endRead } ∧
      ctlBus cfg c (ws ++ [w]) = List.replicate (ws.length + 1) BusOut.listen := by
  have hgate : c.gate = true := by simp [Ctl.gate, hg]
  have ht : ∀ x : PortIn × PhyIn, c.tick cfg x.1 x.2
      = if (x.2.rwdsIn.getLsbD 1 && x.1.rdataReady && x.1.rdataLast) then { c with state := .endRead } else c := by
    intro x
    rw [tick_of_gate hgate]
    simp [Ctl.tickOpen, hs, Ctl.tickRead, Ctl.portOut, hgate]
  have hb : ∀ mp, c.bus cfg mp = BusOut.listen := by intro mp; simp [Ctl.bus, hs]
  induction ws with
  | nil =>
    constructor
    · simp only [List.nil_append, ctlRun, ht, hw, if_true]
    · simp [ctlBus, hb]
  | cons x ws ih =>
    have e : c.tick cfg x.1 x.2 = c := by rw [ht, hws x (by simp)]; rfl
    obtain ⟨h1, h2⟩ := ih fun y hy => hws y (by simp [hy])
    constructor
    · rw [List.cons_append, ctlRun, e, h1]
    · rw [List.cons_append, ctlBus, e, hb, h2]; rfl

/-- The end of a write (41_controller.md R214, R222), for a transaction of a client. -/
theorem ctlRun_writeEnd (cfg : Cfg) (c : Ctl) (post : List (PortIn × PhyIn)) (hs : c.state = .endWrite)
    (hd : c.dlycnt = BitVec.ofNat 8 cfg.txLatency) (hn : cfg.txLatency < 256) (hp : post.length = cfg.txLatency + 2) :
    ctlRun cfg c post = Ctl.tickEndRead { c with state := .endRead, dlycnt := 0#8 } ∧
      ctlBus cfg c post = writeEnd cfg := by
  obtain ⟨cnt, rest, rfl, hc⟩ : ∃ cnt rest, post = cnt ++ rest ∧ cnt.length = cfg.txLatency :=
    ⟨post.take cfg.txLatency, post.drop cfg.txLatency, (List.take_append_drop _ _).symm, by simp [hp]⟩
  have hr : rest.length = 2 := by rw [List.length_append] at hp; omega
  match rest, hr with
  | [a, b], _ =>
    have hb : ∀ d mp, Ctl.bus cfg { c with dlycnt := d } mp = BusOut.park := by intro d mp; simp [Ctl.bus, hs]
    have h1 : Ctl.tick cfg { c with dlycnt := 0#8 } a.1 a.2 = { c with state := .endRead, dlycnt := 0#8 } := by
      rw [tick_of_gate (by simp [Ctl.gate])]; simp [Ctl.tickOpen, hs]
    have h2 : Ctl.tick cfg { c with state := .endRead, dlycnt := 0#8 } b.1 b.2
        = Ctl.tickEndRead { c with state := .endRead, dlycnt := 0#8 } := by
      rw [tick_of_gate (by simp [Ctl.gate])]; rfl
    constructor
    · rw [ctlRun_append, ctlRun_countdown cfg c cnt (by rw [hd, hc]) (by omega), ctlRun, h1, ctlRun, h2, ctlRun]
    · rw [ctlBus_append, ctlRun_countdown cfg c cnt (by rw [hd, hc]) (by omega),
        ctlBus_countdown cfg c cnt BusOut.park (by rw [hd, hc]) (by omega) (fun d mp _ => hb d mp), ctlBus, h1, ctlBus, hb,
        ctlBus, hc, writeEnd, List.replicate_succ', List.append_assoc]
      rfl

/-! ## In flight: the Controller is not in `IDLE` in any of the cycles -/

/-- The Controller is not in `IDLE` in any of the cycles (it may be after them). -/
def InFlight (cfg : Cfg) : Ctl → List (PortIn × PhyIn) → Prop
  | _, [] => True
  | c, i :: is => c.state ≠ .idle ∧ InFlight cfg (c.tick cfg i.1 i.2) is

theorem inFlight_append {cfg : Cfg} {c : Ctl} {is js : List (PortIn × PhyIn)} :
    InFlight cfg c (is ++ js) ↔ InFlight cfg c is ∧ InFlight cfg (ctlRun cfg c is) js := by
  induction is generalizing c with
  | nil => simp [InFlight, ctlRun]
  | cons i is ih => simp only [List.cons_append, InFlight, ctlRun, ih, and_assoc]

theorem inFlight_countdown (cfg : Cfg) (c : Ctl) (is : List (PortIn × PhyIn)) (h : c.dlycnt = BitVec.ofNat 8 is.length)
    (hn : is.length < 256) (hs : c.state ≠ .idle) : InFlight cfg c is := by
  induction is generalizing c with
  | nil => trivial
  | cons i is ih =>
    rw [List.length_cons] at h hn
    have hg : c.gate = false := by rw [gate_ofNat h hn]; simp
    refine ⟨hs, ?_⟩
    rw [tick_of_not_gate hg]
    refine ih _ ?_ (by omega) hs
    simp only [h]
    rw [BitVec.ofNat_add, BitVec.add_sub_cancel]

theorem inFlight_delay (cfg : Cfg) (c : Ctl) (pre : List (PortIn × PhyIn)) (m : PortIn × PhyIn) (cnt : List (PortIn × PhyIn))
    (st : CtlState) (load : Nat) (hd : c.dlycnt = BitVec.ofNat 8 pre.length) (hp : pre.length < 256)
    (ht : Ctl.tickOpen cfg { c with dlycnt := 0#8 } m.1 m.2 = Ctl.enter { c with dlycnt := 0#8 } st load)
    (hl : cnt.length = load) (hc : load < 256) (hs : c.state ≠ .idle) (hst : st ≠ .idle) :
    InFlight cfg c (pre ++ m :: cnt) := by
  rw [inFlight_append, ctlRun_countdown cfg c pre hd hp]
  refine ⟨inFlight_countdown cfg c pre hd hp hs, hs, ?_⟩
  rw [tick_of_gate (by simp [Ctl.gate]), ht]
  exact inFlight_countdown cfg _ cnt (by simp [hl]) (by omega) hst

theorem inFlight_packet (cfg : Cfg) (c : Ctl) (i j k : PortIn × PhyIn) (hs : c.state = .caWord0) (hg : c.dlycnt = 0#8) :
    InFlight cfg c [i, j, k] := by
  obtain ⟨state, dlycnt, ca, autoTxn, cfgPending, cfgDie⟩ := c
  simp only at hs hg
  subst hs; subst hg
  exact ⟨fun h => CtlState.noConfusion h, fun h => CtlState.noConfusion h, fun h => CtlState.noConfusion h, trivial⟩

theorem inFlight_stream (cfg : Cfg) (c : Ctl) (ws : List (PortIn × PhyIn)) (w : PortIn × PhyIn)
    (hs : c.state = .write ∨ c.state = .writeReg) (hg : c.dlycnt = 0#8)
    (hws : ∀ x ∈ ws, (x.1.wdataValid && x.1.wdata.last) = false) : InFlight cfg c (ws ++ [w]) := by
  have hi : c.state ≠ .idle := by obtain hs | hs := hs <;> simp [hs]
  have ht : ∀ x : PortIn × PhyIn, c.tick cfg x.1 x.2 = c.tickStream cfg x.1 := by
    intro x
    rw [tick_of_gate (by simp [Ctl.gate, hg])]
    obtain hs | hs := hs <;> simp [Ctl.tickOpen, hs]
  induction ws with
  | nil => exact ⟨hi, trivial⟩
  | cons x ws ih =>
    have : c.tickStream cfg x.1 = c := by simp only [Ctl.tickStream, hws x (by simp)]; rfl
    refine ⟨hi, ?_⟩
    rw [ht, this]
    exact ih fun y hy => hws y (by simp [hy])

theorem inFlight_read (cfg : Cfg) (c : Ctl) (ws : List (PortIn × PhyIn)) (w : PortIn × PhyIn) (hs : c.state = .read)
    (hg : c.dlycnt = 0#8) (hws : ∀ x ∈ ws, (x.2.rwdsIn.getLsbD 1 && x.1.rdataReady && x.1.rdataLast) = false) :
    InFlight cfg c (ws ++ [w]) := by
  have hgate : c.gate = true := by simp [Ctl.gate, hg]
  have ht : ∀ x : PortIn × PhyIn, c.tick cfg x.1 x.2
      = if (x.2.rwdsIn.getLsbD 1 && x.1.rdataReady && x.1.rdataLast) then { c with state := .endRead } else c := by
    intro x
    rw [tick_of_gate hgate]
    simp [Ctl.tickOpen, hs, Ctl.tickRead, Ctl.portOut, hgate]
  have hi : c.state ≠ .idle := by simp [hs]
  induction ws with
  | nil => exact ⟨hi, trivial⟩
  | cons x ws ih =>
    refine ⟨hi, ?_⟩
    rw [ht, hws x (by simp)]
    exact ih fun y hy => hws y (by simp [hy])

theorem inFlight_writeEnd (cfg : Cfg) (c : Ctl) (post : List (PortIn × PhyIn)) (hs : c.state = .endWrite)
    (hd : c.dlycnt = BitVec.ofNat 8 cfg.txLatency) (hn : cfg.txLatency < 256) (hp : post.length = cfg.txLatency + 2) :
    InFlight cfg c post := by
  obtain ⟨cnt, rest, rfl, hc⟩ : ∃ cnt rest, post = cnt ++ rest ∧ cnt.length = cfg.txLatency :=
    ⟨post.take cfg.txLatency, post.drop cfg.txLatency, (List.take_append_drop _ _).symm, by simp [hp]⟩
  have hr : rest.length = 2 := by rw [List.length_append] at hp; omega
  match rest, hr with
  | [a, b], _ =>
    have h1 : Ctl.tick cfg { c with dlycnt := 0#8 } a.1 a.2 = { c with state := .endRead, dlycnt := 0#8 } := by
      rw [tick_of_gate (by simp [Ctl.gate])]; simp [Ctl.tickOpen, hs]
    rw [inFlight_append, ctlRun_countdown cfg c cnt (by rw [hd, hc]) (by omega)]
    refine ⟨inFlight_countdown cfg c cnt (by rw [hd, hc]) (by omega) (by simp [hs]), by simp [hs], ?_, trivial⟩
    rw [h1]
    simp

end Sys2Proof.Laws
end

