-- ==== Sys2Proof/Laws/Core.lean ====
section
/-! SUPPORT. CORE's tick, once the Crossbar and RegisterSpace are known: a transaction of the data port, and what RegisterSpace and
the Crossbar do in the meantime. -/

namespace Sys2Proof.Laws

open Sys2Proof Sys2Proof.Machine Sys2Proof.Safety

theorem busy_eq_false_iff (r : Rs) : r.busy = false ↔ r.state = .start ∧ r.setupDone = true ∧ r.strobePending = false := by
  unfold Rs.busy
  cases r.state <;> cases r.setupDone <;> cases r.strobePending <;> simp

/-- RegisterSpace with nothing to do and nothing written stays as it is. -/
theorem rsTick_idle {r : Rs} (hb : r.busy = false) (rp : PortOut) {csr : CsrIn} (hc : csr.we = false) : r.tick rp csr = r := by
  obtain ⟨h1, h2, h3⟩ := (busy_eq_false_iff r).1 hb
  simp [Rs.tick, hc, Rs.advance, h1, h2, h3]

/-- What the client presents reaches the Controller when the data port is connected and no register command waits. -/
theorem mpIn_data (cfg : Cfg) {s : CoreState} (i : Inputs) (hb : s.rs.busy = false) (hr : s.xb.regSelect = false) :
    s.mpIn cfg i = i.dp := by
  obtain ⟨h1, h2, h3⟩ := (busy_eq_false_iff s.rs).1 hb
  have e : (RsState.start == RsState.waitCmd) = false := rfl
  simp [CoreState.mpIn, xbForward, CoreState.sel, CoreState.lockout, hr, h2, Rs.port, h1, e]

theorem mpOut_cmdReady_of_not_idle {s : CoreState} (i : Inputs) (h : s.ctl.state ≠ .idle) : (s.mpOut i).cmdReady = false := by
  simp [CoreState.mpOut, Ctl.portOut, h]

theorem xbTick_of_not_ready (x : Xb) (rp : Bool) : x.tick false false rp = x := by simp [Xb.tick]

/-- A cycle of a data-port transaction: the Controller alone moves. -/
theorem tick_data (cfg : Cfg) {s : CoreState} {i : Inputs} (hq : quiet i = true) (hb : s.rs.busy = false)
    (hr : s.xb.regSelect = false) (hi : s.ctl.state ≠ .idle) :
    s.tick cfg i = { s with ctl := s.ctl.tick cfg i.dp i.phy } := by
  obtain ⟨-, h2, -⟩ := (busy_eq_false_iff s.rs).1 hb
  simp only [quiet, Bool.and_eq_true, Bool.not_eq_true'] at hq
  rw [tick_of_not_reset cfg s i hq.1]
  simp only [CoreState.advance, mpIn_data cfg i hb hr, mpOut_cmdReady_of_not_idle i hi, rsTick_idle hb _ hq.2, CoreState.lockout,
    h2, Bool.not_true, xbTick_of_not_ready]

/-- The part of the inputs the Controller sees of a data-port transaction. -/
def dataInputs (is : List Inputs) : List (PortIn × PhyIn) := is.map fun i => (i.dp, i.phy)

@[simp] theorem dataInputs_append (is js : List Inputs) : dataInputs (is ++ js) = dataInputs is ++ dataInputs js :=
  List.map_append

@[simp] theorem dataInputs_cons (i : Inputs) (is : List Inputs) : dataInputs (i :: is) = (i.dp, i.phy) :: dataInputs is := rfl

@[simp] theorem dataInputs_nil : dataInputs [] = [] := rfl

@[simp] theorem dataInputs_length (is : List Inputs) : (dataInputs is).length = is.length := List.length_map _

/-- The cycles of a data-port transaction in flight are a run of the Controller alone. -/
theorem coreRun_data (cfg : Cfg) (s : CoreState) (is : List Inputs) (hq : ∀ i ∈ is, quiet i = true) (hb : s.rs.busy = false)
    (hr : s.xb.regSelect = false) (hf : InFlight cfg s.ctl (dataInputs is)) :
    coreRun cfg s is = { s with ctl := ctlRun cfg s.ctl (dataInputs is) } ∧
      busOf (coreObs cfg s is) = ctlBus cfg s.ctl (dataInputs is) := by
  induction is generalizing s with
  | nil => exact ⟨rfl, rfl⟩
  | cons i is ih =>
    rw [dataInputs_cons] at hf
    obtain ⟨hi, hf⟩ := hf
    have ht := tick_data cfg (hq i (by simp)) hb hr hi
    obtain ⟨h1, h2⟩ := ih { s with ctl := s.ctl.tick cfg i.dp i.phy } (fun j hj => hq j (by simp [hj])) hb hr hf
    constructor
    · rw [coreRun, ht, h1]; rfl
    · rw [coreObs, ht, busOf, List.map_cons, ← busOf, h2]
      simp [CoreState.outputs, mpIn_data cfg i hb hr, ctlBus]

/-- The Controller is in flight as long as its run says so. -/
theorem inFlight_of_coreRun (cfg : Cfg) (s : CoreState) (is : List Inputs) (hq : ∀ i ∈ is, quiet i = true)
    (hb : s.rs.busy = false) (hr : s.xb.regSelect = false) (hf : InFlight cfg s.ctl (dataInputs is)) {k : Nat}
    (hk : k < is.length) : (coreRun cfg s (is.take k)).ctl.state ≠ .idle := by
  rw [← List.take_append_drop k is, dataInputs_append, inFlight_append] at hf
  rw [(coreRun_data cfg s (is.take k) (fun i hi => hq i (List.mem_of_mem_take hi)) hb hr hf.1).1]
  have : is.drop k ≠ [] := by simp; omega
  match h : is.drop k, this with
  | i :: rest, _ => rw [h] at hf; exact hf.2.1

end Sys2Proof.Laws
end

