-- ==== Sys2Proof/Laws/EnvRef.lean ====
section
/-! SUPPORT. What ENV-REF can do in one bus cycle, and the packet it captures. -/

namespace Sys2Proof.Laws

open Sys2Proof Sys2Proof.Machine

section
variable (cfg : Cfg) (n : Nat) (d : Device) (b : BusOut)

@[simp] theorem draw_txq : (d.draw n b).txq = d.txq := by simp only [Device.draw]; (repeat' split) <;> rfl
@[simp] theorem draw_rxq : (d.draw n b).rxq = d.rxq := by simp only [Device.draw]; (repeat' split) <;> rfl
@[simp] theorem draw_lockAt : (d.draw n b).lockAt = d.lockAt := by simp only [Device.draw]; (repeat' split) <;> rfl
@[simp] theorem draw_id0 : (d.draw n b).id0 = d.id0 := by simp only [Device.draw]; (repeat' split) <;> rfl
@[simp] theorem draw_cr0a : (d.draw n b).cr0a = d.cr0a := by simp only [Device.draw]; (repeat' split) <;> rfl
@[simp] theorem draw_cr0b : (d.draw n b).cr0b = d.cr0b := by simp only [Device.draw]; (repeat' split) <;> rfl
@[simp] theorem draw_mem : (d.draw n b).mem = d.mem := by simp only [Device.draw]; (repeat' split) <;> rfl
@[simp] theorem draw_slot : (d.draw n b).slot = d.slot := by simp only [Device.draw]; (repeat' split) <;> rfl
@[simp] theorem draw_ca : (d.draw n b).ca = d.ca := by simp only [Device.draw]; (repeat' split) <;> rfl

/-- A released chip-select ends the transaction and changes nothing else. -/
theorem busCycle_released (h : b.cs = false) : d.busCycle cfg n b = ({ d with slot := 0, ca := 0#48 }, BusIn.silent) := by
  simp [Device.busCycle, h]

/-- A stopped clock changes nothing. -/
theorem busCycle_stopped (hc : b.cs = true) (hk : b.clkEn = false) : d.busCycle cfg n b = (d, d.answer cfg n b) := by
  simp [Device.busCycle, hc, hk, Device.draw]

/-- A clocked slot: what it captures or writes. -/
theorem busCycle_clocked (hc : b.cs = true) (hk : b.clkEn = true) :
    d.busCycle cfg n b =
      ({ (d.draw n b).takeSlot cfg n b with slot := d.slot + 1 }, (d.draw n b).answer cfg n b) := by
  simp [Device.busCycle, hc, hk]

/-- Everything a slot can do: capture a part of the packet, write a register, write memory, or nothing. -/
theorem takeSlot_cases :
    (d.slot ≤ 2 ∧ d.takeSlot cfg n b = { d with ca := captureCa d.ca d.slot (b.sampledDq n) }) ∨
    (d.slot = 3 ∧ caRead d.ca = false ∧ caReg d.ca = true ∧
      d.takeSlot cfg n b = d.writeReg (d.die cfg) (d.ha cfg) (b.sampledDq n)) ∨
    (3 ≤ d.slot ∧ caRead d.ca = false ∧ caReg d.ca = false ∧ 2 + d.latency cfg ≤ d.slot ∧
      d.takeSlot cfg n b =
        { d with mem := devWriteMem d.mem (d.die cfg) (d.dataAddr cfg) (b.sampledDq n) (~~~(b.sampledRwds n)) }) ∨
    (3 ≤ d.slot ∧ d.takeSlot cfg n b = d) := by
  by_cases h : d.slot ≤ 2
  · exact .inl ⟨h, by simp [Device.takeSlot, h]⟩
  have h3 : 3 ≤ d.slot := by omega
  cases hr : caRead d.ca with
  | true => exact .inr (.inr (.inr ⟨h3, by simp [Device.takeSlot, h, hr]⟩))
  | false =>
    cases hg : caReg d.ca with
    | true =>
      by_cases h' : d.slot = 3
      · exact .inr (.inl ⟨h', rfl, rfl, by simp [Device.takeSlot, hr, hg, h']⟩)
      · exact .inr (.inr (.inr ⟨h3, by simp [Device.takeSlot, h, hr, hg, h']⟩))
    | false =>
      by_cases h' : 2 + d.latency cfg ≤ d.slot
      · exact .inr (.inr (.inl ⟨h3, rfl, rfl, h', by simp [Device.takeSlot, h, hr, hg, h']⟩))
      · exact .inr (.inr (.inr ⟨h3, by simp [Device.takeSlot, h, hr, hg, h']⟩))

/-- The queues keep their depth. -/
theorem tick_txq_length : (d.tick cfg n b).txq.length = d.txq.length := by simp [Device.tick]

theorem tick_rxq_length : (d.tick cfg n b).rxq.length = d.rxq.length := by simp [Device.tick]

end

/-- The three slots of a packet are captured as the packet (30_encoding.md R116; 20_memory.md R104). -/
theorem captureCa_packet (ca : CaPacket) :
    captureCa (captureCa (captureCa 0#48 0 (caHi ca)) 1 (caMid ca)) 2 (caLo ca) = ca := by
  apply BitVec.eq_of_getLsbD_eq
  intro i hi
  simp only [captureCa, caHi, caMid, caLo]
  interval_cases i <;> simp

end Sys2Proof.Laws
end

