-- ==== Sys2Proof/Laws/Memory.lean ====
section
/-! SUPPORT. The device's memory: every operation keeps the canonical form, a read gives what was written, and a write changes
nothing else. -/

namespace Sys2Proof.Laws

open Sys2Proof Sys2Proof.Machine

/-! ## One byte -/

theorem memWf_tail {c : Host.Cell} {m : List Host.Cell} (h : memWf (c :: m) = true) : memWf m = true := by
  cases m with
  | nil => rfl
  | cons d m => simp only [memWf, Bool.and_eq_true] at h; exact h.2

/-- Writing above the head keeps the form behind it. -/
theorem memWf_memSet_above (c : Host.Cell) (m : List Host.Cell) (k : Nat) (v : Byte) (h : memWf (c :: m) = true)
    (hk : c.1 < k) : memWf (c :: memSet m k v) = true := by
  induction m generalizing c with
  | nil => simp [memSet, memWf, hk]
  | cons d m ih =>
    simp only [memWf, Bool.and_eq_true, decide_eq_true_eq] at h
    simp only [memSet]
    split
    · simp [memWf, *]
    · split
      · rename_i h1 h2
        subst h2
        cases m with
        | nil => simp [memWf, hk]
        | cons e m => simp only [memWf, Bool.and_eq_true, decide_eq_true_eq] at h ⊢; exact ⟨hk, h.2⟩
      · simp only [memWf, Bool.and_eq_true, decide_eq_true_eq]
        exact ⟨h.1, ih d h.2 (by omega)⟩

/-- A byte write keeps the canonical form. -/
theorem memWf_memSet (m : List Host.Cell) (k : Nat) (v : Byte) (h : memWf m = true) : memWf (memSet m k v) = true := by
  cases m with
  | nil => rfl
  | cons c m =>
    simp only [memSet]
    split
    · simp [memWf, *]
    · split
      · rename_i h1 h2
        subst h2
        cases m with
        | nil => rfl
        | cons d m => simpa [memWf] using h
      · exact memWf_memSet_above c m k v h (by omega)

/-- A read of the byte just written gives the value. -/
@[simp] theorem memGet_memSet_same (m : List Host.Cell) (k : Nat) (v : Byte) : memGet (memSet m k v) k = some v := by
  induction m with
  | nil => simp [memSet, memGet]
  | cons c m ih =>
    simp only [memSet]
    split
    · simp [memGet]
    · split
      · simp [memGet]
      · rename_i h1 h2
        simp [memGet, ih, Ne.symm h2]

/-- A byte write leaves every other byte alone. -/
theorem memGet_memSet_other (m : List Host.Cell) {j k : Nat} (v : Byte) (h : j ≠ k) :
    memGet (memSet m k v) j = memGet m j := by
  induction m with
  | nil => simp [memSet, memGet, Ne.symm h]
  | cons c m ih =>
    simp only [memSet]
    split
    · simp [memGet, Ne.symm h]
    · split
      · rename_i h1 h2
        subst h2
        simp [memGet, Ne.symm h]
      · simp only [memGet, ih]

/-! ## One half-word -/

theorem byteKey_injective {d d' : Bool} {a a' : HalfAddr} {l l' : Bool} (h : byteKey d a l = byteKey d' a' l') :
    d = d' ∧ a = a' ∧ l = l' := by
  have h1 := a.isLt
  have h2 := a'.isLt
  have : d = d' ∧ a.toNat = a'.toNat ∧ l = l' := by
    unfold byteKey at h
    revert h
    cases d <;> cases d' <;> cases l <;> cases l' <;> simp <;> omega
  exact ⟨this.1, BitVec.eq_of_toNat_eq this.2.1, this.2.2⟩

theorem byteKey_eq_iff {d d' : Bool} {a a' : HalfAddr} {l l' : Bool} :
    byteKey d a l = byteKey d' a' l' ↔ d = d' ∧ a = a' ∧ l = l' :=
  ⟨byteKey_injective, by rintro ⟨rfl, rfl, rfl⟩; rfl⟩

/-- A half-word write keeps the canonical form. -/
theorem memWf_devWriteMem (m : List Host.Cell) (die : Bool) (ha : HalfAddr) (v : HalfWord) (mask : Mask)
    (h : memWf m = true) : memWf (devWriteMem m die ha v mask) = true := by
  unfold devWriteMem
  split
  · exact h
  · exact memWf_memSet _ _ _ (memWf_memSet _ _ _ h)

/-- What a half-word write stores, byte by byte (20_memory.md R103). -/
theorem memGet_devWriteMem (m : List Host.Cell) (die : Bool) (ha : HalfAddr) (v : HalfWord) (mask : Mask) (k : Nat) :
    memGet (devWriteMem m die ha v mask) k =
      if mask = 0b00#2 then memGet m k
      else if k = byteKey die ha true then
        some (if mask.getLsbD 0 then v.extractLsb' 0 8 else (memGet m k).getD 0#8)
      else if k = byteKey die ha false then
        some (if mask.getLsbD 1 then v.extractLsb' 8 8 else (memGet m k).getD 0#8)
      else memGet m k := by
  unfold devWriteMem
  by_cases h0 : mask = 0b00#2
  · simp [h0]
  · simp only [h0, if_false]
    by_cases h1 : k = byteKey die ha true
    · subst h1; simp
    · rw [memGet_memSet_other _ _ h1]
      simp only [h1, if_false]
      by_cases h2 : k = byteKey die ha false
      · subst h2; simp
      · rw [memGet_memSet_other _ _ h2]
        simp [h2]

/-- The memory of ENV-REF at reset is in canonical form. -/
theorem memWf_reset (c : Cfg) : memWf (Device.reset c).mem = true := rfl

end Sys2Proof.Laws
end

