-- ==== Sys2Proof/Laws/PerInstr.lean ====
section
/-! SUPPORT. The families of per-instruction lemmas. `RequestDecodes`: what a client presents for an instruction decodes to that
instruction, with every operand (30_encoding.md R110, R111, R125, R126). -/

namespace Sys2Proof.Laws.RequestDecodes

/-- The request that presents the instruction, if it has one, decodes to it. -/
def Statement (i : Instr) : Prop := ∀ r, i.request? = some r → r.decode = i

theorem memRd (burst : Bool) (addr : HalfAddr) : Statement (.memRd burst addr) := by
  rintro _ ⟨⟩; simp [Request.decode, decodeCmd]

theorem memWr (burst : Bool) (addr : HalfAddr) : Statement (.memWr burst addr) := by
  rintro _ ⟨⟩; simp [Request.decode, decodeCmd]

theorem regRd (burst : Bool) (addr : HalfAddr) : Statement (.regRd burst addr) := by
  rintro _ ⟨⟩; simp [Request.decode, decodeCmd]

theorem regWr (burst : Bool) (addr : HalfAddr) : Statement (.regWr burst addr) := by
  rintro _ ⟨⟩; simp [Request.decode, decodeCmd]

theorem ctlAutocfg : Statement (.ctlAutocfg) := nofun

theorem csrLatch (we : Bool) (die : BitVec 2) (type : BitVec 8) (nr : BitVec 3) (value : HalfWord) : Statement (.csrLatch we die type nr value) := by
  rintro _ ⟨⟩; simp [Request.decode, decodeCsrWrite]

theorem csrGoWr (die : BitVec 2) (type : BitVec 8) (nr : BitVec 3) (value : HalfWord) : Statement (.csrGoWr die type nr value) := by
  rintro _ ⟨⟩; simp [Request.decode, decodeCsrWrite]

theorem csrGoRd (die : BitVec 2) (type : BitVec 8) (nr : BitVec 3) (value : HalfWord) : Statement (.csrGoRd die type nr value) := by
  rintro _ ⟨⟩; simp [Request.decode, decodeCsrWrite]

theorem csrRead : Statement (.csrRead) := by
  rintro _ ⟨⟩; simp [Request.decode]

theorem rsSetup : Statement (.rsSetup) := nofun

end Sys2Proof.Laws.RequestDecodes
end

