-- ==== Sys2Proof/Laws/RegisterSpace.lean ====
section
/-! SUPPORT. What RegisterSpace and the Crossbar can do in one tick. -/

namespace Sys2Proof.Laws

open Sys2Proof Sys2Proof.Machine

/-- Everything RegisterSpace's state machine can do at a tick (43_registerspace.md R304, R305, R306, R308). -/
theorem advance_cases (r : Rs) (rp : PortOut) :
    (r.advance rp = r ∧
      (r.state = .start ∧ r.setupDone = true ∧ r.strobePending = false ∨ r.state = .waitCmd ∧ rp.cmdReady = false ∨
        r.state = .waitWrite ∧ rp.wdataReady = false ∨ r.state = .waitRead ∧ rp.rdataValid = false)) ∨
    (r.state = .start ∧ (r.setupDone = false ∨ r.strobePending = true) ∧
      r.advance rp = { r with state := .waitCmd, strobePending := false }) ∨
    (r.state = .waitCmd ∧ rp.cmdReady = true ∧
      r.advance rp = { r with state := if r.we then .waitWrite else .waitRead }) ∨
    (r.state = .waitWrite ∧ rp.wdataReady = true ∧ r.setupDone = true ∧ r.advance rp = { r with state := .start }) ∨
    (r.state = .waitWrite ∧ rp.wdataReady = true ∧ r.setupDone = false ∧ r.dieNr = 0#2 ∧
      r.advance rp = { r with state := .start, setupDone := true }) ∨
    (r.state = .waitWrite ∧ rp.wdataReady = true ∧ r.setupDone = false ∧ r.dieNr ≠ 0#2 ∧
      r.advance rp = { r with state := .start, dieNr := r.dieNr - 1#2 }) ∨
    (r.state = .waitRead ∧ rp.rdataValid = true ∧ r.advance rp = { r with regValue := rp.rdataData, state := .start }) := by
  unfold Rs.advance Rs.wordTaken
  split
  · cases hd : r.setupDone <;> cases hp : r.strobePending <;> simp_all
  · cases h : rp.cmdReady <;> simp_all
  · cases h : rp.wdataReady <;> cases hd : r.setupDone <;> by_cases hn : r.dieNr = 0#2 <;> simp_all
  · cases h : rp.rdataValid <;> simp_all

/-- Set-up, once done, stays done. -/
theorem advance_setupDone {r : Rs} (rp : PortOut) (h : r.setupDone = true) : (r.advance rp).setupDone = true := by
  rcases advance_cases r rp with ⟨e, _⟩ | ⟨_, _, e⟩ | ⟨_, _, e⟩ | ⟨_, _, _, e⟩ | ⟨_, _, _, _, e⟩ | ⟨_, _, _, _, e⟩ | ⟨_, _, e⟩ <;>
    rw [e] <;> simp [h]

/-- A tick is the state machine's step, or, not busy and with a CSR write, the latched word. -/
theorem rsTick_cases (r : Rs) (rp : PortOut) (csr : CsrIn) :
    (r.busy = false ∧ csr.we = true ∧ r.tick rp csr = (r.advance rp).latch csr.wdata) ∨
    ((r.busy = true ∨ csr.we = false) ∧ r.tick rp csr = r.advance rp) := by
  cases hb : r.busy <;> cases hc : csr.we <;> simp [Rs.tick, hb, hc]

/-- The priority bit (42_crossbar.md R270): forced by lockout, in a boundary cycle the pending register command, else kept. -/
theorem xbTick_eq (x : Xb) (lockout ready valid : Bool) :
    (x.tick lockout ready valid).regSelect = (lockout || if ready then valid else x.regSelect) := by
  cases lockout <;> cases ready <;> cases valid <;> cases h : x.regSelect <;> simp [Xb.tick, h]

/-- With the register port connected the Controller sees RegisterSpace alone (42_crossbar.md R264). -/
@[simp] theorem xbForward_reg (dp rp : PortIn) : xbForward true dp rp = rp := rfl

/-- With the data port connected the Controller sees the data client, its command masked by a waiting register command
(42_crossbar.md R265). -/
@[simp] theorem xbForward_data (dp rp : PortIn) :
    xbForward false dp rp = { dp with cmdValid := dp.cmdValid && !rp.cmdValid } := rfl

end Sys2Proof.Laws
end

