-- ==== Sys2Proof/Machine/Scenario.lean ====
section
/-! DEFINITION. Scenarios (30_encoding.md R140) and the reference client CLIENT-REF (R141): a data-port script, CSR events, and the
cycle in which the client, the CSR master and the machine advance together. They are environment agents, no part of CORE. -/

namespace Sys2Proof.Machine

/-- The phase of CLIENT-REF (30_encoding.md R141). -/
inductive ClientPhase where
  | nextItem
  | cmd
  | wd
  | rd
deriving DecidableEq, Repr

/-- CLIENT-REF (30_encoding.md R141): its phase, the rest of its script, the current item, the index in its burst, a running `WAIT`
count, the words received, and the pattern of a slow client (the cycles, repeating, in which it presents; empty for all). -/
structure Client where
  phase    : ClientPhase
  script   : List ScriptItem
  current  : ScriptItem
  index    : Nat
  count    : Nat
  received : List HalfWord
  pattern  : List Bool
deriving DecidableEq, Repr

/-- A scenario in progress: the machine, CLIENT-REF, the CSR events still to come, and the CSR values read, oldest first. -/
structure Scenario where
  machine : State
  client  : Client
  events  : List CsrEvent
  csrRead : List CsrWord
deriving DecidableEq, Repr

/-- The `cmd` item of a script item (30_encoding.md R140). -/
def itemCommand? : ScriptItem → Option Cmd
  | .memWr a l _ => some { we := true, aspace := false, burst := l, addr := a }
  | .memRd a l _ => some { we := false, aspace := false, burst := l, addr := a }
  | .regWr a l _ => some { we := true, aspace := true, burst := l, addr := a }
  | .regRd a l _ => some { we := false, aspace := true, burst := l, addr := a }
  | .wait _ => none

/-- The words a script item writes. -/
def itemWords : ScriptItem → List (HalfWord × Mask)
  | .memWr _ _ ws => ws
  | .regWr _ _ ws => ws
  | .memRd _ _ _ => []
  | .regRd _ _ _ => []
  | .wait _ => []

/-- The words a script item reads. -/
def itemReadCount : ScriptItem → Nat
  | .memRd _ _ n => n
  | .regRd _ _ n => n
  | .memWr _ _ _ => 0
  | .regWr _ _ _ => 0
  | .wait _ => 0

/-- The client presents in cycle `n` (30_encoding.md R141, the slow variant). -/
def Client.presents (c : Client) (n : Nat) : Bool :=
  if c.pattern.isEmpty then true else c.pattern.getD (n % c.pattern.length) true

/-- What CLIENT-REF drives in cycle `n` (30_encoding.md R141). -/
def Client.port (c : Client) (n : Nat) : PortIn :=
  match c.phase with
  | .nextItem => PortIn.quiet
  | .cmd =>
    match itemCommand? c.current with
    | some cmd => { PortIn.quiet with cmdValid := c.presents n, cmd := cmd }
    | none => PortIn.quiet
  | .wd =>
    match (itemWords c.current)[c.index]? with
    | some w => { PortIn.quiet with
                  wdataValid := c.presents n
                  wdata := { data := w.1, we := w.2, last := c.index + 1 == (itemWords c.current).length } }
    | none => PortIn.quiet
  | .rd => { PortIn.quiet with rdataReady := c.presents n, rdataLast := c.index + 1 == itemReadCount c.current }

/-- CLIENT-REF takes the next item in phase `NEXT` (30_encoding.md R141). -/
def Client.next (c : Client) : Client :=
  if 0 < c.count then { c with count := c.count - 1 }
  else
    match c.script with
    | [] => c
    | .wait n :: rest => { c with script := rest, count := n }
    | item :: rest => { c with script := rest, current := item, phase := .cmd }

/-- CLIENT-REF's tick (30_encoding.md R141): `p` is what it drove and `o` what it saw in the cycle. -/
def Client.tick (c : Client) (p : PortIn) (o : PortOut) : Client :=
  match c.phase with
  | .nextItem => c.next
  | .cmd =>
    if p.cmdValid && o.cmdReady then
      { c with phase := if p.cmd.we then .wd else .rd, index := 0 }
    else c
  | .wd =>
    if p.wdataValid && o.wdataReady then
      { c with index := c.index + 1, phase := if p.wdata.last then .nextItem else .wd }
    else c
  | .rd =>
    if p.rdataReady && o.rdataValid then
      { c with index := c.index + 1, received := c.received ++ [o.rdataData], phase := if p.rdataLast then .nextItem else .rd }
    else c

/-- The CSR write of cycle `n`, when one is scheduled (30_encoding.md R140). -/
def csrWriteAt (n : Nat) : List CsrEvent → Option CsrWord
  | [] => none
  | .write k w :: rest => if k = n then some w else csrWriteAt n rest
  | .read _ :: rest => csrWriteAt n rest

/-- A CSR read is scheduled in cycle `n` (30_encoding.md R140). -/
def csrReadAt (n : Nat) : List CsrEvent → Bool
  | [] => false
  | .read k :: rest => k == n || csrReadAt n rest
  | .write _ _ :: rest => csrReadAt n rest

/-- The inputs of a scenario's coming cycle. The PHY's part counts only where no device stands behind the PHY. -/
def Scenario.inputs (s : Scenario) : Inputs :=
  { reset := false
    dp := s.client.port s.machine.cycle
    csr := match csrWriteAt s.machine.cycle s.events with
           | some w => { we := true, wdata := w }
           | none => CsrIn.quiet
    phy := s.machine.phyIn }

/-- One cycle of a scenario. -/
def Scenario.clock (s : Scenario) : Scenario :=
  let m : State := { s.machine with sched := [s.inputs], req := none }
  { machine := m.clock
    client := s.client.tick s.inputs.dp m.outputs.dp
    events := s.events
    csrRead := if csrReadAt s.machine.cycle s.events then s.csrRead ++ [m.outputs.csrRdata] else s.csrRead }

/-- `n` cycles of a scenario. -/
def Scenario.run : Nat → Scenario → Scenario
  | 0, s => s
  | n + 1, s => Scenario.run n s.clock

/-- A scenario's start: the reset state of a configuration with ENV-REF at reset, and CLIENT-REF in `NEXT` in cycle 0
(30_encoding.md R141). -/
def Scenario.start (cfg : Cfg) (lockAt : Nat) (draws : List Bool) (script : List ScriptItem) (events : List CsrEvent) : Scenario :=
  { machine := { State.resetWith cfg with device := some { Device.reset cfg with lockAt := lockAt, draws := draws } }
    client := { phase := .nextItem, script := script, current := .wait 0, index := 0, count := 0, received := [], pattern := [] }
    events := events
    csrRead := [] }

end Sys2Proof.Machine
end

