-- ==== Sys2Proof/Tests/Slice0.lean ====
section
/-! SUPPORT. Tests: well-formedness, decoding of words written out from the encodings, worked constructions and packets, one small step
or two per instruction, and for every obligation with hypotheses a witness that meets them. Expected values are the spec's
(30_encoding.md R120, R127; 40_configuration.md R174; 95_test_vectors.md). -/

namespace Sys2Proof.Tests

open Sys2Proof Sys2Proof.Machine Sys2Proof.Safety

/-! ## Well-formedness -/

/-- 41_controller.md R240: no client can select it. -/
theorem test_wf_refuses_ctlAutocfg : Instr.wellFormed .ctlAutocfg = false := by decide

/-- 43_registerspace.md R320: it cannot be requested. -/
theorem test_wf_refuses_rsSetup : Instr.wellFormed .rsSetup = false := by decide

theorem test_wf_accepts_memWr : Instr.wellFormed (.memWr false 0xFFFFFFFF#32) = true := by decide

/-- 20_memory.md R63: a burst has at least one word. -/
theorem test_wf_refuses_empty_burst : burstWellFormed [] = false := by decide

/-- 20_memory.md R63: the final word carries `last`. -/
theorem test_wf_refuses_burst_without_last : burstWellFormed [{ data := 1#16, we := 0b11#2, last := false }] = false := by decide

/-- 20_memory.md R63: no earlier word carries it. -/
theorem test_wf_refuses_early_last :
    burstWellFormed [{ data := 1#16, we := 0b11#2, last := true }, { data := 2#16, we := 0b11#2, last := true }] = false := by decide

theorem test_wf_accepts_burst :
    burstWellFormed [{ data := 1#16, we := 0b11#2, last := false }, { data := 2#16, we := 0b01#2, last := true }] = true := by decide

theorem test_wf_refuses_empty_items :
    ([ScriptItem.memWr 0#32 true [], .memRd 0#32 true 0, .regWr 0#32 true [], .regRd 0#32 true 0].all fun i => !i.wellFormed) = true := by
  decide

/-! ## Decoding: words written out bit by bit from 30_encoding.md R110 (`we aspace burst addr`) and R125 (`busy strobe we die type nr
value`) -/

theorem test_decode_memRd : decodeTableWord 35 0b00100000000000000000001000000000000 = some (.memRd true 0x1000#32) := by decide

theorem test_decode_memRd_wrapped : decodeTableWord 35 0b00011111111111111111111111111111111 = some (.memRd false 0xFFFFFFFF#32) := by
  decide

theorem test_decode_memWr : decodeTableWord 35 0b10000000000010000000000000000000101 = some (.memWr false 0x400005#32) := by decide

theorem test_decode_regRd : decodeTableWord 35 0b01100000000010000000000100000000000 = some (.regRd true 0x400800#32) := by decide

theorem test_decode_regWr : decodeTableWord 35 0b11100000000000000000000100000000001 = some (.regWr true 0x801#32) := by decide

theorem test_decode_csrLatch :
    decodeTableWord 32 0b00100000000010001000111111100111 = some (.csrLatch true 0#2 1#8 0#3 0x8FE7#16) := by decide

theorem test_decode_csrLatch_read :
    decodeTableWord 32 0b00011111111101110000000000000000 = some (.csrLatch false 3#2 0xFE#8 7#3 0#16) := by decide

theorem test_decode_csrGoWr :
    decodeTableWord 32 0b01100000000010011111111111111110 = some (.csrGoWr 0#2 1#8 1#3 0xFFFE#16) := by decide

theorem test_decode_csrGoRd :
    decodeTableWord 32 0b01001000000010000000000000000000 = some (.csrGoRd 1#2 1#8 0#3 0#16) := by decide

/-- 30_encoding.md R126: bit 31 is ignored on a write. -/
theorem test_decode_ignores_bit_31 :
    decodeTableWord 32 0b11111111111111111111111111111111 = some (.csrGoWr 3#2 0xFF#8 7#3 0xFFFF#16) := by decide

/-- 43_registerspace.md R319: no operand word. -/
theorem test_decode_csrRead : decode [] = .ok .csrRead := by decide

/-- The words lie least significant byte first. -/
theorem test_decode_bytes : decode [0x00#8, 0x10#8, 0x00#8, 0x00#8, 0x05#8] = .ok (.memWr true 0x1000#32) := by decide

theorem test_decode_refuses_padding : decode [0#8, 0#8, 0#8, 0#8, 8#8] = .error .commandPaddingNotZero := by decide

theorem test_decode_refuses_length : decode [0#8, 0#8, 0#8] = .error .noPortItemOfThisLength := by decide

theorem test_encode_regWr : encode (.regWr true 0x400800#32) = [0x00#8, 0x08#8, 0x40#8, 0x00#8, 0x07#8] := by decide

/-- 30_encoding.md R130: `last` bit 18, `we` bits 17:16. -/
theorem test_wdata_word :
    WItem.ofWord 0b1010101010101100110#19 = { data := 0x5566#16, we := 0b01#2, last := true } := by decide

/-! ## Packets (95_test_vectors.md V-CA) -/

def cmdOf (we aspace burst : Bool) (addr : HalfAddr) : Cmd := { we := we, aspace := aspace, burst := burst, addr := addr }

theorem test_ca :
    caOf (cmdOf true false true 0x1000#32) = 0x200002000000#48 ∧ caOf (cmdOf true false false 0x400005#32) = 0x000800000005#48 ∧
    caOf (cmdOf true false true 7#32) = 0x200000000007#48 ∧ caOf (cmdOf true false true 8#32) = 0x200000010000#48 ∧
    caOf (cmdOf false false true 0xFFFFFFFF#32) = 0xBFFFFFFF0007#48 ∧ caOf (cmdOf false true true 0x400800#32) = 0xE00801000000#48 := by
  decide

/-- Two dies, `DIE_BIT` 22: the configuration of program P3. -/
def dual : Cfg := { lanes := .one, nbanks := 2, dieBit := 22, clkFreq := 66000000, txLatency := 1, rxLatency := 1, il := 3, fixed := true,
                    cr0Base := cr0BaseDefault }

/-- One die: the configuration of program P1. -/
def single : Cfg := { lanes := .one, nbanks := 1, dieBit := 22, clkFreq := 100000000, txLatency := 1, rxLatency := 2, il := 4, fixed := false,
                      cr0Base := cr0BaseDefault }

theorem test_regAddr :
    regAddr dual 3#2 0xFF#8 7#3 = 0x47F807#32 ∧ regAddr single 3#2 0xFF#8 7#3 = 0x07F807#32 ∧ regAddr dual 1#2 1#8 0#3 = 0x400800#32 := by
  decide

theorem test_autocfg_packets :
    caAutocfg dual 0#1 = 0x600001000000#48 ∧ caAutocfg dual 1#1 = 0x600801000000#48 := by decide

/-! ## Construction (40_configuration.md R174; 95_test_vectors.md V-CON, V-CR0) -/

/-- Construction of `PROFILE_REF166` at a frequency. -/
def at166 (f : Nat) : ConstructInputs := { referenceInputs with clkFreq := f }

theorem test_construct_reference : construct referenceInputs = .ok single := by decide

theorem test_constants_reference :
    single.cr0 = 0x8FF7#16 ∧ single.selDly = 1 ∧ single.fixedOffset = 4 ∧ single.wlat true = 4 ∧ single.wlat false = 0 ∧
    single.rlat true = 7 ∧ single.rlat false = 3 ∧ single.endwDly = 1 := by decide

/-- The configuration of a row of 40_configuration.md R171. -/
def phyRow (tx rx il : Nat) (fixed : Bool) : Cfg := { single with txLatency := tx, rxLatency := rx, il := il, fixed := fixed }

/-- The constants of a row: `SEL_DLY`, `FIXED_OFFSET`, `WLAT_LONG`, `WLAT_SHORT`, `RLAT_LONG`, `RLAT_SHORT`, `ENDW_DLY`. -/
def constants (c : Cfg) : List Int :=
  [c.selDly, c.fixedOffset, c.wlat true, c.wlat false, c.rlat true, c.rlat false, c.endwDly]

/-- 40_configuration.md R171, rows 1 to 10. -/
theorem test_constants_table :
    constants (phyRow 1 2 4 false) = [1, 4, 4, 0, 7, 3, 1] ∧ constants (phyRow 1 1 3 true) = [0, 3, 3, 0, 5, 2, 1] ∧
    constants (phyRow 1 2 3 false) = [1, 4, 2, -1, 5, 2, 1] ∧ constants (phyRow 1 2 3 true) = [1, 4, 2, -1, 5, 2, 1] ∧
    constants (phyRow 2 3 6 false) = [3, 6, 6, 0, 11, 5, 2] ∧ constants (phyRow 3 4 7 false) = [5, 8, 6, -1, 13, 6, 3] ∧
    constants (phyRow 3 4 3 true) = [5, 8, -2, -5, 5, 2, 3] ∧ constants (phyRow 0 1 3 false) = [0, 3, 3, 0, 4, 1, 0] ∧
    constants (phyRow 0 1 3 true) = [0, 3, 3, 0, 4, 1, 0] ∧ constants (phyRow 0 0 5 true) = [0, 3, 7, 2, 7, 2, 0] := by decide

/-- 40_configuration.md R151: `CR0_BASE` given. -/
theorem test_construct_cr0Base :
    construct { at166 100000000 with cr0Base := some 0xFFFF#16 } = .ok { single with cr0Base := 0xFFFF#16 } := by decide

theorem test_construct_dual :
    construct { at166 66000000 with profile := profileRef166Dual, rxLatency := 1 } = .ok dual ∧ dual.cr0 = 0x8FEF#16 := by decide

theorem test_construct_e0 : construct { at166 100000000 with profile := { profileRef166 with bankCount := 3 } } = .error .e0Profile := by
  decide

theorem test_construct_e1 : construct (at166 166000001) = .error .e1Freq := by decide

theorem test_construct_e1_wide : construct { at166 100000000 with lanes := .two } = .error .e1Freq := by decide

theorem test_construct_e2 : construct { at166 100000000 with ilOverride := some 2 } = .error .e2Range := by decide

theorem test_construct_e3 : construct { at166 100000000 with ilOverride := some 3 } = .error .e3MinLat := by decide

theorem test_construct_e4 :
    construct { at166 100000000 with profile := profileRef166Dual, fixedOverride := some false } = .error .e4FixedRequired := by decide

theorem test_construct_e5 : construct (at166 66000000) = .error .e5PhyRoundtrip := by decide

theorem test_construct_e6 :
    construct { at166 66000000 with txLatency := 3, rxLatency := 4, fixedOverride := some true } = .error .e6LongNegative := by decide

theorem test_construct_e7 : construct { at166 66000000 with txLatency := 0, rxLatency := 1 } = .error .e7SampleWindow := by decide

theorem test_construct_e9 : construct { at166 50000000 with lanes := .two } = .error .e9Wide := by decide

theorem test_construct_order :
    construct { at166 200000000 with profile := profileRef166Dual, fixedOverride := some false } = .error .e1Freq := by decide

theorem test_cr0 :
    cr0Of 0x8F07#16 3 false = 0x8FE7#16 ∧ cr0Of 0x8F07#16 4 true = 0x8FFF#16 ∧ cr0Of 0x8F07#16 5 false = 0x8F07#16 ∧
    cr0Of 0x8F07#16 6 true = 0x8F1F#16 ∧ cr0Of 0x8F07#16 7 false = 0x8F27#16 ∧ cr0Of 0xFFFF#16 5 false = 0xFF07#16 ∧
    cr0Of 0#16 3 true = 0x00E8#16 := by decide

/-! ## The CSR word at reset, ENV-REF's memory -/

theorem test_csr_at_reset :
    (CoreState.reset single).rs.csrRdata = 0xA0088FF7#32 ∧ (CoreState.reset dual).rs.csrRdata = 0xA8088FEF#32 := by decide

/-- 20_memory.md R103: a half-word not written before, with only the low byte enabled. -/
theorem test_masked_word : devReadMem (devWriteMem [] false 0x1002#32 0x5566#16 0b01#2) 0 false 0x1002#32 = 0x0066#16 := by decide

/-- 20_memory.md R102, R103: the identification register and CR0 of a die. -/
theorem test_device_registers :
    (Device.reset dual).readReg true 0#32 = 0x0C81#16 ∧ (Device.reset dual).readReg true 0x800#32 = 0x8F1F#16 ∧
    ((Device.reset dual).writeReg true 0x800#32 0x8FEF#16).readReg true 0x800#32 = 0x8FEF#16 ∧
    ((Device.reset dual).writeReg true 0x800#32 0x8FEF#16).readReg false 0x800#32 = 0x8F1F#16 := by decide

/-! ## Small states -/

/-- A quiet cycle with the PHY locked. -/
def locked : Inputs :=
  { reset := false, dp := PortIn.quiet, csr := CsrIn.quiet, phy := { dqIn := 0#16, rwdsIn := 0b00#2, pllLocked := true } }

/-- A cycle in which the producer offers a word. -/
def offers (v : HalfWord) (last : Bool) : Inputs :=
  { locked with dp := { PortIn.quiet with wdataValid := true, wdata := { data := v, we := 0b11#2, last := last } } }

/-- A cycle in which the device strobes a word and the consumer takes it. -/
def takes (v : HalfWord) (last : Bool) : Inputs :=
  { locked with
    dp := { PortIn.quiet with rdataReady := true, rdataLast := last }
    phy := { dqIn := v, rwdsIn := 0b10#2, pllLocked := true } }

/-- The machine after its start-up, with a schedule and nothing behind the PHY. -/
def ready (cfg : Cfg) (sched : List Inputs) : State :=
  { cfg := cfg, core := (CoreState.reset cfg).started, device := none, sched := sched, req := none, cycle := 0, trace := [] }

/-- The machine with its start-up done, so far as RegisterSpace is concerned, with its register command waiting. -/
def booting (cfg : Cfg) (sched : List Inputs) : State :=
  { ready cfg sched with core := CoreState.reset cfg }

/-- What an instruction gives as next state, looked at through `f`. -/
def after (i : Instr) (s : State) (f : State → α) : Option α :=
  match Sys2Proof.Machine.exec i s with
  | .next t => some (f t)
  | _ => none

/-! ## One instruction each (95_test_vectors.md V-CTL, V-RS, V-CSR) -/

/-- V-CTL: a short `MEM_WR` of one word is back in `IDLE` at `k` = 10, 11 cycles after the launch cycle; the word is in slot 6. -/
theorem test_memWr :
    after (.memWr true 0x1000#32) (ready single (List.replicate 7 locked ++ offers 0x1122#16 true :: List.replicate 3 locked))
      (fun t => (t.core.ctl.state, t.cycle, (busOf t.trace)[7]?)) =
    some (.idle, 11, some { cs := true, clkEn := true, dqOe := true, dqOut := 0x1122#16, rwdsOe := true, rwdsOut := 0b00#2 }) := by
  decide

/-- V-CTL: with a short latency the first word reaches the consumer at `k` = 9. -/
theorem test_memRd :
    after (.memRd true 0x1000#32) (ready single (List.replicate 10 locked ++ [takes 0x1111#16 true, locked]))
      (fun t => (t.core.ctl.state, t.cycle, takenByData t.trace, t.core.ctl.ca)) =
    some (.idle, 12, [0x1111#16], 0xA00002000000#48) := by decide

/-- V-CTL: the word of a `REG_WR` is in slot 3, with no latency. -/
theorem test_regWr :
    after (.regWr true 0x801#32) (ready single (List.replicate 4 locked ++ offers 0xFFFE#16 true :: List.replicate 3 locked))
      (fun t => (t.core.ctl.state, t.cycle, (busOf t.trace)[4]?)) =
    some (.idle, 8, some { cs := true, clkEn := true, dqOe := true, dqOut := 0xFFFE#16, rwdsOe := false, rwdsOut := 0b11#2 }) := by
  decide

/-- A `REG_RD` has the latency of a memory read. -/
theorem test_regRd :
    after (.regRd true 0#32) (ready single (List.replicate 10 locked ++ [takes 0x0C81#16 true, locked]))
      (fun t => (t.core.ctl.state, t.cycle, takenByData t.trace, t.core.ctl.ca)) =
    some (.idle, 12, [0x0C81#16], 0xE00000000000#48) := by decide

/-- V-CTL: `IDLE` again 8 cycles after the launch, for each of two dies, the Controller's own word on the bus. -/
theorem test_ctlAutocfg :
    after .ctlAutocfg (booting dual (List.replicate 16 locked))
      (fun t => (t.core.ctl.cfgPending, t.cycle, (busOf t.trace)[4]?, ((busOf t.trace)[1]?.map BusOut.dqOut), t.core.ctl.ca)) =
    some (false, 16, some (BusOut.drive 0x8FEF#16), some 0x6008#16, 0x600001000000#48) := by decide

/-- V-CSR: the latched word reads back, `busy` stays 0. -/
theorem test_csrLatch :
    after (.csrLatch true 0#2 1#8 0#3 0x8FE7#16) (ready single [locked]) (fun t => (t.core.rs.csrRdata, t.cycle)) =
    some (0x20088FE7#32, 1) := by decide

/-- V-CSR: while busy nothing is latched. -/
theorem test_csrLatch_busy :
    after (.csrLatch false 3#2 0#8 7#3 1#16) (booting single [locked]) (fun t => (t.core.rs.csrRdata, t.core.rs.dieNr)) =
    some (0xA0088FF7#32, 0#2) := by decide

/-- V-RS1: `busy` falls with the tick of cycle `n + 7`; the packet; the CSR word. -/
theorem test_csrGoWr :
    after (.csrGoWr 0#2 1#8 1#3 0xFFFE#16) (ready single (List.replicate 8 locked))
      (fun t => (t.cycle, t.core.rs.csrRdata, t.core.ctl.ca, t.core.ctl.state)) =
    some (8, 0x2009FFFE#32, 0x600001000001#48, .endWrite) := by decide

/-- V-CSR: the result of an ID0 read is in the CSR word. -/
theorem test_csrGoRd :
    after (.csrGoRd 0#2 0#8 0#3 0#16) (ready single (List.replicate 13 locked ++ [takes 0x0C81#16 false]))
      (fun t => (t.core.rs.csrRdata, t.core.ctl.ca)) =
    some (0x00000C81#32, 0xE00000000000#48) := by decide

/-- V-CSR: the word read at reset. -/
theorem test_csrRead :
    after .csrRead (booting single [locked]) (fun t => (t.trace.map fun o => o.out.csrRdata, t.cycle)) =
    some ([0xA0088FF7#32], 1) := by decide

/-- Program P1, cycles 8 to 12: RegisterSpace's start-up write, from where the Controller's own is over. -/
theorem test_rsSetup :
    after .rsSetup
      { ready single (List.replicate 5 locked) with
        core := { (CoreState.reset single).started with
                  xb := { regSelect := true }, rs := { Rs.reset single with state := .waitCmd } } }
      (fun t => (t.core.rs.setupDone, t.cycle, (busOf t.trace)[4]?, t.core.rs.busy)) =
    some (true, 5, some (BusOut.drive 0x8FF7#16), false) := by decide

/-- A placed word is the next instruction. -/
theorem test_withFetchWord :
    State.fetch (State.withFetchWord State.reset 35 0x500001000) = some (.memWr true 0x1000#32) ∧
    State.fetch (State.withFetchWord State.reset 32 0x48080000) = some (.csrGoRd 1#2 1#8 0#3 0#16) ∧
    State.fetch (State.withFetchWord State.reset 0 0) = some .csrRead := by decide

/-- 95_test_vectors.md P1, cycles 0 to 9, with ENV-REF and CLIENT-REF: the Controller's write, then RegisterSpace's command. -/
theorem test_scenario_start :
    (Scenario.run 9 (Scenario.start single 0 [] [.memRd 0x1000#32 true 3] [])).machine.core.ctl =
      { state := .caWord0, dlycnt := 0#8, ca := 0x600001000000#48, autoTxn := false, cfgPending := false, cfgDie := 0#1 } := by decide

/-! ## Witnesses: concrete values that meet the hypotheses of the obligations -/

/-- The Controller in a state, with a counter and a packet. -/
def ctlIn (st : CtlState) (n : Nat) (ca : CaPacket) : Ctl :=
  { state := st, dlycnt := BitVec.ofNat 8 n, ca := ca, autoTxn := false, cfgPending := false, cfgDie := 0#1 }

/-- RegisterSpace in a state, set-up done. -/
def rsIn (st : RsState) : Rs :=
  { state := st, setupDone := true, strobePending := false, regValue := 0#16, regNr := 0#3, regType := 1#8, dieNr := 0#2, we := true }

/-- CORE with the data port connected and a transaction in flight. -/
def coreIn (st : CtlState) (ca : CaPacket) : CoreState := { ctl := ctlIn st 0 ca, xb := { regSelect := false }, rs := rsIn .start }

/-- ENV-REF at reset, with a die's CR0 as configured. -/
def configured (cfg : Cfg) (draws : List Bool) : Device :=
  { Device.reset cfg with cr0a := cfg.cr0, cr0b := cfg.cr0, draws := draws }

theorem witness_DecodeOfEncode : Instr.wellFormed (.csrGoRd 3#2 0xFF#8 7#3 0xFFFF#16) = true := by decide

theorem witness_PacketsAreCommands : (0xBFFFFFFF0007#48 : CaPacket).extractLsb' 3 13 = 0#13 := by decide

theorem witness_RegisterSpaceAddress : 19 ≤ dual.dieBit ∧ dual.dieBit ≤ 31 ∧ single.nbanks ≠ 2 := by decide

theorem witness_AutoconfigurationPacket : dual.nbanks = 2 ∧ 3 ≤ dual.dieBit ∧ dual.dieBit ≤ 31 := by decide

theorem witness_ConstructionReportsFirstCheck :
    construct (at166 166000001) = .error .e1Freq ∧ construct (at166 100000000) = .ok single := by decide

theorem witness_ConstructionChecksAndFields :
    ∃ (i : ConstructInputs) (n f il sel : Nat) (fixed : Bool) (w : Bool → Int),
      n = (match i.lanes with | .one => 1 | .two => 2) ∧ f = i.clkFreq * n ∧
      il = (match i.ilOverride with | some k => k | none => i.profile.minLatency f) ∧
      (fixed = match i.fixedOverride with | some b => b | none => decide (i.profile.bankCount = 2 ∨ n = 2)) ∧
      (sel : Int) = max 0 ((i.txLatency : Int) + i.rxLatency - 2) ∧
      (∀ long, w long = (if long then 2 * (il : Int) else il) - (3 + sel)) ∧ construct i = .ok single :=
  ⟨referenceInputs, 1, 100000000, 4, 1, false, fun long => if long then 4 else 0, by decide⟩

theorem witness_HandOverCycle :
    ∃ (s : State) (c : Inputs) (rest : List Inputs) (d : Device),
      accessReady s = true ∧ s.core.xb.regSelect = true ∧ s.sched = c :: rest ∧ rest ≠ [] ∧ quiet c = true ∧ lockedFor s [c] = true ∧
      s.device = some d ∧ deviceReady s d (caOf (cmdOf true false true 5#32)) = true :=
  ⟨{ ready single [locked, locked] with
     core := { (CoreState.reset single).started with xb := { regSelect := true } }, device := some (configured single []) },
    locked, [locked], configured single [], by decide⟩

theorem witness_AcceptedConfigurationsFit :
    construct referenceInputs = .ok single ∧ single.fixed = false := by decide

theorem witness_WideDatapathRefused : ({ at166 50000000 with lanes := .two } : ConstructInputs).lanes = .two := by decide

theorem witness_Cr0Fields : 3 ≤ 3 ∧ 3 ≤ 7 ∧ 3 ≤ 7 ∧ 7 ≤ 7 := by decide

theorem witness_ResetTable :
    single.nbanks = 1 ∧ dual.nbanks = 2 ∧ ({ locked with reset := true } : Inputs).reset = true := by decide

theorem witness_ResetWins : ({ locked with reset := true } : Inputs).reset = true := by decide

theorem witness_InvariantKeptByEveryStep :
    MachineInv (ready single [locked]) ∧ ∃ t, Sys2Proof.Machine.step (ready single [locked]) = .next t := by
  refine ⟨⟨?_, nofun⟩, _, rfl⟩
  constructor <;> decide

theorem witness_StartUpFlagsNeverRearm :
    (∀ i ∈ (ready single [locked]).sched, i.reset = false) ∧ (ready single [locked]).core.ctl.cfgPending = false ∧
    (ready single [locked]).core.rs.setupDone = true ∧ ∃ t, Sys2Proof.Machine.step (ready single [locked]) = .next t :=
  ⟨by decide, by decide, by decide, _, rfl⟩

theorem witness_StepRunsDecodedInstruction_start :
    (booting single []).core.ctl.cfgPending = true ∧
    ({ ready single [] with core := { (CoreState.reset single).started with rs := Rs.reset single } } : State).core.ctl.cfgPending = false ∧
    ({ ready single [] with core := { (CoreState.reset single).started with rs := Rs.reset single } } : State).core.rs.setupDone = false :=
  by decide

theorem witness_StepRunsDecodedInstruction_request :
    (ready single []).core.ctl.cfgPending = false ∧ (ready single []).core.rs.setupDone = true ∧ (ready single []).req = none ∧
    ({ ready single [] with req := some (.csrWrite 0x6009FFFE#32) } : State).req = some (.csrWrite 0x6009FFFE#32) ∧
    decode (Request.csrWrite 0x6009FFFE#32).toBytes = .ok (.csrGoWr 0#2 1#8 1#3 0xFFFE#16) := by decide

theorem witness_GateCountsDown :
    (ctlIn .write 4 0#48).dlycnt ≠ 0#8 ∧ (ctlIn .write 0 0#48).dlycnt = 0#8 ∧
    (List.replicate 4 (PortIn.quiet, locked.phy)).length = (ctlIn .write 4 0#48).dlycnt.toNat := by decide

theorem witness_ControllerStateGraph :
    (ctlIn .selectOp 0 0#48).gate = true ∧ mayWait (ctlIn .selectOp 0 0#48) = false ∧ (ctlIn .selectOp 0 0#48).state ≠ .idle := by decide

theorem witness_IdleLaunches :
    (ctlIn .idle 0 0#48).state = .idle ∧ (ctlIn .idle 0 0#48).dlycnt = 0#8 ∧ locked.phy.pllLocked = true ∧
    ({ locked.phy with pllLocked := false } : PhyIn).pllLocked = false ∧ (Ctl.reset single).cfgPending = true ∧
    (ctlIn .idle 0 0#48).cfgPending = false ∧ ({ PortIn.quiet with cmdValid := true } : PortIn).cmdValid = true ∧
    PortIn.quiet.cmdValid = false := by decide

theorem witness_WriteStreams :
    (ctlIn .write 0 0#48).state = .write ∧ (ctlIn .write 0 0#48).gate = true ∧ (ctlIn .write 3 0#48).gate = false ∧
    (offers 1#16 true).dp.wdataValid = true ∧ (offers 1#16 true).dp.wdata.last = true ∧ (offers 1#16 false).dp.wdata.last = false ∧
    PortIn.quiet.wdataValid = false := by decide

theorem witness_ReadOffersStrobedWords :
    (ctlIn .read 0 0#48).state = .read ∧ (ctlIn .read 0 0#48).gate = true ∧
    ((ctlIn .read 0 0#48).portOut (takes 1#16 true).phy).rdataValid = true ∧ (takes 1#16 true).dp.rdataReady = true ∧
    (takes 1#16 true).dp.rdataLast = true ∧ (takes 1#16 false).dp.rdataLast = false := by decide

theorem witness_RegisterWriteStreams :
    (ctlIn .selectOp 0 0x600001000000#48).dlycnt = 0#8 ∧ caRead 0x600001000000#48 = false ∧ caReg 0x600001000000#48 = true ∧
    ({ ctlIn .selectOp 0 0x600001000000#48 with autoTxn := true } : Ctl).autoTxn = true ∧
    (ctlIn .selectOp 0 0x600001000000#48).autoTxn = false ∧ (ctlIn .writeReg 0 0x600001000000#48).state = .writeReg := by decide

theorem witness_RwdsReadOnlyWhereStated :
    locked.phy.pllLocked = (takes 1#16 true).phy.pllLocked ∧
    ¬((ctlIn .write 0 0#48).state = .read ∧ (ctlIn .write 0 0#48).gate = true) ∧
    ¬(((ctlIn .write 0 0#48).state = .writeDelay ∨ (ctlIn .write 0 0#48).state = .readDelay) ∧ (ctlIn .write 0 0#48).gate = true) ∧
    dual.fixed = true := by decide

theorem witness_UnselectedPortIsolated : (CoreState.reset single).sel = true ∧ (ready single []).core.sel = false := by decide

theorem witness_PriorityBit :
    locked.reset = false ∧ (CoreState.reset single).lockout = true ∧ (coreIn .write 0#48).lockout = false ∧
    boundary (coreIn .write 0#48) locked = false ∧ boundary (coreIn .idle 0#48) locked = true := by decide

theorem witness_LockoutDisconnectsDataPort : (CoreState.reset dual).rs.setupDone = false ∧ locked.reset = false := by decide

theorem witness_NoMidBurstSwitch :
    (∀ i ∈ [locked, offers 1#16 false], i.reset = false) ∧
    ∀ k, k < [locked, offers 1#16 false].length →
      (coreRun single (coreIn .write 0#48) ([locked, offers 1#16 false].take k)).ctl.state ≠ .idle := by decide

theorem witness_SetUpIsNotInterruptible :
    List.Forall₂ (fun i j : Inputs => i.reset = j.reset ∧ i.phy = j.phy) [locked] [{ offers 1#16 true with csr := ⟨true, 0x40000000#32⟩ }] ∧
    ∀ k, k < [locked].length → (coreRun single (CoreState.reset single) ([locked].take k)).rs.setupDone = false :=
  ⟨by decide, by decide⟩

theorem witness_RegisterSpaceMachine :
    (rsIn .start).state = .start ∧ (rsIn .waitCmd).state = .waitCmd ∧ (rsIn .waitWrite).state = .waitWrite ∧
    (rsIn .waitRead).state = .waitRead ∧ (rsIn .start).setupDone = true ∧ (Rs.reset dual).setupDone = false ∧
    ({ rsIn .start with strobePending := true } : Rs).strobePending = true ∧ (rsIn .start).dieNr = 0#2 ∧ (Rs.reset dual).dieNr ≠ 0#2 := by
  decide

theorem witness_CsrWriteLatchesOrIsDropped : (rsIn .start).busy = false ∧ (rsIn .waitRead).busy = true := by decide

theorem witness_MemWrCompletes :
    ∃ (s : State) (c m w : Inputs) (pre ws post rest : List Inputs) (long : Bool),
      s.cfg.wf = true ∧ dataReady s = true ∧ s.device = none ∧ s.sched = c :: (pre ++ ws ++ w :: (post ++ rest)) ∧
      (∀ i ∈ c :: (pre ++ ws ++ w :: post), quiet i = true) ∧ c.phy.pllLocked = true ∧ pre[4 + s.cfg.selDly]? = some m ∧
      long = longLatency s.cfg m.phy ∧ pre.length = 2 + s.cfg.lat long ∧ (∀ i ∈ ws, lastWord i = false) ∧ lastWord w = true ∧
      post.length = s.cfg.txLatency + 2 :=
  ⟨ready single (locked :: (List.replicate 6 locked ++ [offers 1#16 false, locked] ++ offers 2#16 true :: (List.replicate 3 locked ++ []))),
    locked, locked, offers 2#16 true, List.replicate 6 locked, [offers 1#16 false, locked], List.replicate 3 locked, [], false,
    by decide⟩

theorem witness_ReadsComplete :
    ∃ (s : State) (c m w e : Inputs) (pre ws rest : List Inputs) (long : Bool),
      s.cfg.wf = true ∧ dataReady s = true ∧ s.device = none ∧ s.sched = c :: (pre ++ ws ++ w :: e :: rest) ∧
      (∀ i ∈ c :: (pre ++ ws ++ [w, e]), quiet i = true) ∧ c.phy.pllLocked = true ∧ pre[4 + s.cfg.selDly]? = some m ∧
      long = longLatency s.cfg m.phy ∧ pre.length = 2 + s.cfg.lat long + s.cfg.txLatency + s.cfg.rxLatency ∧
      (∀ i ∈ ws, lastRead i = false) ∧ lastRead w = true :=
  ⟨ready single (locked :: (List.replicate 9 locked ++ [takes 1#16 false, locked] ++ takes 2#16 true :: locked :: [])),
    locked, locked, takes 2#16 true, locked, List.replicate 9 locked, [takes 1#16 false, locked], [], false, by decide⟩

theorem witness_RegWrCompletes :
    ∃ (s : State) (c w : Inputs) (pre ws post rest : List Inputs),
      s.cfg.wf = true ∧ dataReady s = true ∧ s.sched = c :: (pre ++ ws ++ w :: (post ++ rest)) ∧
      (∀ i ∈ c :: (pre ++ ws ++ w :: post), quiet i = true) ∧ lockedFor s [c] = true ∧ pre.length = 3 ∧
      (∀ i ∈ ws, lastWord i = false) ∧ lastWord w = true ∧ post.length = s.cfg.txLatency + 2 :=
  ⟨ready single (locked :: (List.replicate 3 locked ++ [offers 1#16 false] ++ offers 2#16 true :: (List.replicate 3 locked ++ []))),
    locked, offers 2#16 true, List.replicate 3 locked, [offers 1#16 false], List.replicate 3 locked, [], by decide⟩

theorem witness_CsrLatchCompletes :
    (ready single [locked]).core.rs.busy = false ∧ quiet (ready single [locked]).scheduled = true := by decide

theorem witness_CsrWriteWhileBusyIsLost :
    (booting single [locked]).core.rs.busy = true ∧ (booting single [locked]).scheduled.csr.we = false := by decide

theorem witness_CsrGoWrCompletes :
    ∃ (s : State) (h rest : List Inputs),
      accessReady s = true ∧ s.sched = h ++ rest ∧ h.length = 8 ∧ (∀ i ∈ h, calm i = true) ∧ lockedFor s h = true :=
  ⟨ready single (List.replicate 8 locked ++ []), List.replicate 8 locked, [], by decide⟩

theorem witness_CsrGoRdCompletes :
    ∃ (s : State) (m w : Inputs) (h pre ws rest : List Inputs) (long : Bool),
      s.cfg.wf = true ∧ accessReady s = true ∧ s.device = none ∧ s.sched = h ++ (pre ++ ws ++ w :: rest) ∧
      (∀ i ∈ h, calm i = true ∧ i.phy.pllLocked = true) ∧ (∀ i ∈ pre ++ ws ++ [w], quiet i = true) ∧ h.length = 4 ∧
      pre[4 + s.cfg.selDly]? = some m ∧ long = longLatency s.cfg m.phy ∧
      pre.length = 2 + s.cfg.lat long + s.cfg.txLatency + s.cfg.rxLatency ∧ (∀ i ∈ ws, i.phy.rwdsIn.getLsbD 1 = false) ∧
      w.phy.rwdsIn.getLsbD 1 = true :=
  ⟨ready single (List.replicate 4 locked ++ (List.replicate 9 locked ++ [locked] ++ takes 2#16 true :: [])),
    locked, takes 2#16 true, List.replicate 4 locked, List.replicate 9 locked, [locked], [], false, by decide⟩

theorem witness_CtlAutocfgCompletes :
    ∃ (s : State) (h rest : List Inputs),
      s.cfg.wf = true ∧ s.core.ctl.state = .idle ∧ s.core.ctl.dlycnt = 0#8 ∧ s.core.ctl.cfgPending = true ∧
      s.core.rs.setupDone = false ∧ (s.core.rs.state = .start ∨ s.core.rs.state = .waitCmd) ∧ s.core.rs.strobePending = false ∧
      s.sched = h ++ rest ∧ h.length = (s.core.ctl.cfgDie.toNat + 1) * (7 + s.cfg.txLatency) ∧ (∀ i ∈ h, i.reset = false) ∧
      lockedFor s h = true :=
  ⟨booting dual (List.replicate 16 locked ++ []), List.replicate 16 locked, [], by decide⟩

theorem witness_RsSetupCompletes :
    ∃ (s : State) (h rest : List Inputs),
      s.cfg.wf = true ∧ s.core.ctl.state = .idle ∧ s.core.ctl.dlycnt = 0#8 ∧ s.core.ctl.cfgPending = false ∧
      s.core.rs.setupDone = false ∧ s.core.rs.state = .waitCmd ∧ s.core.rs.strobePending = false ∧ s.core.rs.we = true ∧
      s.sched = h ++ rest ∧ h.length = s.core.rs.dieNr.toNat * (7 + s.cfg.txLatency) + 5 ∧ (∀ i ∈ h, i.reset = false) ∧
      lockedFor s h = true :=
  ⟨{ ready dual (List.replicate 13 locked ++ []) with
     core := { (CoreState.reset dual).started with rs := { Rs.reset dual with state := .waitCmd } } },
    List.replicate 13 locked, [], by decide⟩

/-- A quiet cycle with the PHY not locked. -/
def unlocked : Inputs := { locked with phy := { locked.phy with pllLocked := false } }

theorem witness_BootFromReset :
    ∃ (s : State) (w h rest : List Inputs),
      s.cfg.wf = true ∧ s.core = CoreState.reset s.cfg ∧ s.req = none ∧ s.sched = w ++ h ++ rest ∧ locksBetween s w h = true ∧
      (∀ i ∈ w ++ h, i.reset = false) ∧ h.length = 2 * s.cfg.nbanks * (7 + s.cfg.txLatency) ∧
      ∀ i ∈ h.drop (h.length - (s.cfg.txLatency + 2)), i.csr.we = false :=
  ⟨booting dual ([unlocked] ++ List.replicate 32 locked ++ []), [unlocked], List.replicate 32 locked, [], by decide⟩

theorem witness_StallsChangeNothing :
    (∀ i ∈ [locked], i.reset = false) ∧ (coreIn .read 0#48).ctl.dlycnt = 0#8 ∧ (coreIn .read 0#48).ctl.state = .read ∧
    (∀ i ∈ [locked], i.phy.rwdsIn.getLsbD 1 = false) ∧ (coreIn .write 0#48).sel = false ∧ (coreIn .write 0#48).ctl.state = .write ∧
    (coreIn .selectOp 0x600001000000#48).ctl.regWritePath = true ∧ (coreIn .selectOp 0x600001000000#48).ctl.autoTxn = false ∧
    (∀ i ∈ [locked], i.dp.wdataValid = false) := by decide

theorem witness_StallsChangeNothing_waitRead :
    ({ coreIn .read 0xE00000000000#48 with rs := rsIn .waitRead } : CoreState).rs.state = .waitRead ∧
    (coreIn .writeReg 0x600001000000#48).ctl.state = .writeReg := by decide

/-- A device in the first data slot of a memory write to half-word 5. -/
def writingDevice : Device := { configured single [] with slot := 2 + 4, ca := 0x200000000005#48 }

theorem witness_BusCycleMemoryFrame :
    memGet ((writingDevice.busCycle single 0 (BusOut.memWord (offers 0x1122#16 true).dp)).1.mem) 10 ≠ memGet writingDevice.mem 10 := by
  decide

theorem witness_DeviceWriteThenRead :
    (0b10#2 : Mask).getLsbD 1 = true ∧ (0b10#2 : Mask).getLsbD 0 = false ∧ (0b01#2 : Mask).getLsbD 0 = true ∧
    (0b01#2 : Mask).getLsbD 1 = false ∧ ((false, 6#32) : Bool × HalfAddr) ≠ (false, 5#32) ∧ memWf [] = true := by decide

theorem witness_DeviceStoresBurst :
    ∃ (s : State) (d : Device) (c w : Inputs) (pre ws post rest : List Inputs) (x : Bool) (more : List Bool),
      s.cfg.wf = true ∧ dataReady s = true ∧ s.device = some d ∧ deviceReady s d (caOf (cmdOf true false true 5#32)) = true ∧
      d.draws = x :: more ∧ s.sched = c :: (pre ++ ws ++ w :: (post ++ rest)) ∧
      (∀ i ∈ c :: (pre ++ ws ++ w :: post), quiet i = true) ∧ pre.length = 2 + s.cfg.lat (s.cfg.fixed || x) ∧
      (∀ i ∈ ws, lastWord i = false) ∧ lastWord w = true ∧ post.length = s.cfg.txLatency + 2 :=
  ⟨{ ready single (locked :: (List.replicate 10 locked ++ [offers 1#16 false] ++ offers 2#16 true :: (List.replicate 3 locked ++ [])))
      with device := some (configured single [true]) },
    configured single [true], locked, offers 2#16 true, List.replicate 10 locked, [offers 1#16 false], List.replicate 3 locked, [], true,
    [], by decide⟩

theorem witness_DeviceDeliversBurst :
    ∃ (s : State) (d : Device) (c w e : Inputs) (pre ws rest : List Inputs) (reg x : Bool) (more : List Bool),
      s.cfg.wf = true ∧ dataReady s = true ∧ s.device = some d ∧ deviceReady s d (caOf (cmdOf false reg true 5#32)) = true ∧
      d.draws = x :: more ∧ s.sched = c :: (pre ++ ws ++ w :: e :: rest) ∧ (∀ i ∈ c :: (pre ++ ws ++ [w, e]), quiet i = true) ∧
      pre.length = 2 + s.cfg.lat (s.cfg.fixed || x) + s.cfg.txLatency + s.cfg.rxLatency ∧
      (∀ i ∈ ws, i.dp.rdataReady = true → i.dp.rdataLast = false) ∧ w.dp.rdataReady = true ∧ w.dp.rdataLast = true :=
  ⟨{ ready single (locked :: (List.replicate 9 locked ++ [takes 1#16 false, locked] ++ takes 2#16 true :: locked :: []))
      with device := some (configured single [false]) },
    configured single [false], locked, takes 2#16 true, locked, List.replicate 9 locked, [takes 1#16 false, locked], [], false, false,
    [], by decide⟩

theorem witness_DeviceTakesRegisterWord :
    ∃ (s : State) (d : Device) (c w : Inputs) (pre ws post rest : List Inputs) (v : WItem) (vs : List WItem),
      s.cfg.wf = true ∧ dataReady s = true ∧ s.device = some d ∧ d.txq.length = s.cfg.txLatency ∧ quietQueue d = true ∧
      d.lockAt ≤ s.cycle ∧ s.sched = c :: (pre ++ ws ++ w :: (post ++ rest)) ∧
      (∀ i ∈ c :: (pre ++ ws ++ w :: post), quiet i = true) ∧ pre.length = 3 ∧ (∀ i ∈ ws, lastWord i = false) ∧ lastWord w = true ∧
      post.length = s.cfg.txLatency + 2 ∧ offeredIn (ws ++ [w]) = v :: vs :=
  ⟨{ ready single (locked :: (List.replicate 3 locked ++ [locked] ++ offers 2#16 true :: (List.replicate 3 locked ++ [])))
      with device := some (configured single []) },
    configured single [], locked, offers 2#16 true, List.replicate 3 locked, [locked], List.replicate 3 locked, [],
    { data := 2#16, we := 0b11#2, last := true }, [], by decide⟩

theorem witness_BootConfiguresDevice :
    ∃ (s : State) (d : Device) (w h rest : List Inputs),
      s.cfg.wf = true ∧ s.core = CoreState.reset s.cfg ∧ s.req = none ∧ s.sched = w ++ h ++ rest ∧ s.device = some d ∧
      d.txq.length = s.cfg.txLatency ∧ quietQueue d = true ∧ d.lockAt = s.cycle + w.length ∧ (∀ i ∈ w ++ h, i.reset = false) ∧
      h.length = 2 * s.cfg.nbanks * (7 + s.cfg.txLatency) ∧
      (∀ i ∈ h.drop (h.length - (s.cfg.txLatency + 2)), i.csr.we = false) ∧
      (s.cfg.nbanks = 2 → 3 ≤ s.cfg.dieBit ∧ s.cfg.dieBit ≠ 11) :=
  ⟨{ booting dual ([unlocked] ++ List.replicate 32 locked ++ []) with device := some { Device.reset dual with lockAt := 1 } },
    { Device.reset dual with lockAt := 1 }, [unlocked], List.replicate 32 locked, [], by decide⟩

theorem witness_OnlyMemoryWritesStore :
    (∀ b a, Instr.regWr true 0x800#32 ≠ .memWr b a) ∧
    ∃ (s t : State) (d dev : Device),
      s.core.ctl.state = .idle ∧ s.device = some d ∧ quietQueue d = true ∧ (∀ j ∈ s.sched, j.dp.cmdValid = false) ∧
      Sys2Proof.Machine.exec (.regWr true 0x800#32) s = .next t ∧ t.device = some dev :=
  ⟨nofun, { ready single [locked] with device := some (configured single []) }, _, configured single [], _, by decide, rfl, by decide,
    by decide, rfl, rfl⟩

end Sys2Proof.Tests
end

