-- ==== Sys2Proof/Proofs/Construction.lean ====
section
/-! Proofs about construction (40_configuration.md R162): when it fails, and which checks can fire with two lanes. -/

namespace Sys2Proof.Proofs

open Sys2Proof Sys2Proof.Laws

/-- A check that fires makes construction fail, by that check or by an earlier one. -/
theorem exists_construct_eq_error_of_fires {i : ConstructInputs} {e : ConfigurationError} (he : i.fires e = true) :
    ∃ e', construct i = .error e' := by
  cases h : construct i with
  | error e' => exact ⟨e', rfl⟩
  | ok c =>
    obtain ⟨hnone, -⟩ := construct_ok h
    exact absurd he (by simp [hnone e])

theorem fires_e9Wide_iff (i : ConstructInputs) : i.fires .e9Wide = true ↔ i.lanes = .two := by
  simp [ConstructInputs.fires]

theorem fires_e5_to_e8_eq_false_of_two_lanes {i : ConstructInputs} (h : i.lanes = .two) :
    i.fires .e5PhyRoundtrip = false ∧ i.fires .e6LongNegative = false ∧ i.fires .e7SampleWindow = false ∧
      i.fires .e8Dlycnt = false := by
  simp [ConstructInputs.fires, h]

/-- Settles O10: E9 fires, so some check is reported; a reported check fires, so it is none of E5 to E8. -/
theorem wideDatapathRefused : Obligations.WideDatapathRefused := by
  intro i hlanes
  obtain ⟨e, herr⟩ := exists_construct_eq_error_of_fires ((fires_e9Wide_iff i).mpr hlanes)
  have hfires : i.fires e = true := construct_error herr
  obtain ⟨h5, h6, h7, h8⟩ := fires_e5_to_e8_eq_false_of_two_lanes hlanes
  refine ⟨e, herr, ?_⟩
  cases e with
  | e5PhyRoundtrip => simp [h5] at hfires
  | e6LongNegative => simp [h6] at hfires
  | e7SampleWindow => simp [h7] at hfires
  | e8Dlycnt => simp [h8] at hfires
  | e0Profile | e1Freq | e2Range | e3MinLat | e4FixedRequired | e9Wide => simp

end Sys2Proof.Proofs
end

section
/-! Proofs about runs: a step is a number of cycles with some request presented, so what every cycle keeps, and no request touches,
every step keeps. -/

namespace Sys2Proof.Proofs

open Sys2Proof Sys2Proof.Machine Sys2Proof.Safety Sys2Proof.Laws

theorem transact_eq_cycles (s : State) (c : Cmd) : ∃ n, s.transact c = cycles n { s with req := some (.cmd c.toWord) } := by
  obtain ⟨n, -, hn⟩ := runWhile_is_cycles State.transacting s.horizon { s with req := some (.cmd c.toWord) }
  exact ⟨n, hn⟩

theorem csrWrite_eq_cycles (s : State) (w : CsrWord) : s.csrWrite w = cycles 1 { s with req := some (.csrWrite w) } := rfl

theorem csrGo_eq_cycles (s : State) (w : CsrWord) : ∃ n, s.csrGo w = cycles n { s with req := some (.csrWrite w) } := by
  cases hb : s.core.rs.busy with
  | true => exact ⟨1, by simp [State.csrGo, hb, csrWrite_eq_cycles]⟩
  | false =>
    obtain ⟨n, -, hn⟩ := runWhile_is_cycles State.accessing (s.horizon - 1) (s.csrWrite w)
    exact ⟨1 + n, by rw [cycles_add, ← csrWrite_eq_cycles, ← hn]; simp [State.csrGo, hb]⟩

/-- Every instruction answers the state after some cycles with its request presented. -/
theorem exec_eq_cycles (i : Instr) (s : State) : ∃ n, exec i s = .next (cycles n (presenting i s)) := by
  cases i with
  | memRd burst addr | memWr burst addr | regRd burst addr | regWr burst addr =>
    obtain ⟨n, hn⟩ := transact_eq_cycles s _
    exact ⟨n, congrArg _ hn⟩
  | csrLatch we die type nr value => exact ⟨1, rfl⟩
  | csrGoWr die type nr value | csrGoRd die type nr value =>
    obtain ⟨n, hn⟩ := csrGo_eq_cycles s _
    exact ⟨n, congrArg _ hn⟩
  | csrRead => exact ⟨1, rfl⟩
  | ctlAutocfg | rsSetup =>
    obtain ⟨n, -, hn⟩ := runWhile_is_cycles _ s.horizon s
    exact ⟨n, congrArg _ hn⟩

theorem presenting_eq (i : Instr) (s : State) : ∃ r, presenting i s = { s with req := r } := by
  unfold presenting
  split
  · exact ⟨_, rfl⟩
  · exact ⟨s.req, rfl⟩

/-- A step that answers a next state runs some cycles, with some request presented. -/
theorem step_eq_cycles {s t : State} (h : Machine.step s = .next t) : ∃ n r, t = cycles n { s with req := r } := by
  simp only [Machine.step, State.stepOf] at h
  split at h
  next i _ =>
    obtain ⟨n, hn⟩ := exec_eq_cycles i s
    obtain ⟨r, hr⟩ := presenting_eq i s
    rw [hn, hr] at h
    exact ⟨n, r, (Host.Outcome.next.inj h).symm⟩
  next => exact ⟨1, s.req, (Host.Outcome.next.inj h).symm⟩

/-- What every cycle keeps and no presented request touches, every step keeps. -/
theorem step_induction {P : State → Prop} (hclock : ∀ s, P s → P s.clock) (hreq : ∀ s r, P s → P { s with req := r })
    {s t : State} (hs : P s) (hstep : Machine.step s = .next t) : P t := by
  obtain ⟨n, r, rfl⟩ := step_eq_cycles hstep
  exact cycles_induction hclock n (hreq s r hs)

/-- A request leaves the reset input alone. -/
theorem inputs_reset (s : State) : s.inputs.reset = s.scheduled.reset := present_reset _ _

/-- Where the schedule asserts no reset, the coming cycle has none. -/
theorem inputs_reset_eq_false {s : State} (h : ∀ i ∈ s.sched, i.reset = false) : s.inputs.reset = false := by
  rw [inputs_reset, State.scheduled]
  cases hs : s.sched with
  | nil => rfl
  | cons i is => exact h i (by simp [hs])

end Sys2Proof.Proofs
end

section
/-! Proofs about one tick of the Controller: everything it can do (41_controller.md R195 to R222), and what it keeps of its own
fields. -/

namespace Sys2Proof.Proofs

open Sys2Proof Sys2Proof.Machine Sys2Proof.Safety Sys2Proof.Laws

/-- What the Controller can do at a tick, with the conditions under which it does it. -/
inductive CtlMove (cfg : Cfg) (c : Ctl) (mp : PortIn) (phy : PhyIn) : Ctl → Prop
  /-- the gate is closed (R195) -/
  | count (closed : c.gate = false) : CtlMove cfg c mp phy { c with dlycnt := c.dlycnt - 1#8 }
  /-- a waiting state has nothing to launch, or no word to transfer (60_exceptions.md R374) -/
  | wait (gate : c.gate = true) (may : mayWait c = true) : CtlMove cfg c mp phy c
  /-- `IDLE` launches a pending configuration write (R200) -/
  | autocfg (gate : c.gate = true) (idle : c.state = .idle) (locked : phy.pllLocked = true) (pending : c.cfgPending = true) :
      CtlMove cfg c mp phy (c.launch (caAutocfg cfg c.cfgDie) true)
  /-- `IDLE` launches the command on the port (R200) -/
  | command (gate : c.gate = true) (idle : c.state = .idle) (locked : phy.pllLocked = true) (done : c.cfgPending = false)
      (valid : mp.cmdValid = true) : CtlMove cfg c mp phy (c.launch (caOf mp.cmd) false)
  /-- a state in flight is left for a successor (R201 to R218) -/
  | follow (st : CtlState) (load : Nat) (gate : c.gate = true) (running : c.state ≠ .idle) (succ : st ∈ successors c)
      (load_zero : CtlState.counting st = false → load = 0) (not_auto : st = .writeReg → c.autoTxn = false)
      (word : c.state = .read → (c.portOut phy).rdataValid = true) : CtlMove cfg c mp phy (c.enter st load)
  /-- `END_READ` ends the transaction, and may end the configuration writes (R222) -/
  | finish (pending : Bool) (die : BitVec 1) (gate : c.gate = true) (ending : c.state = .endRead)
      (falls : pending = true → c.cfgPending = true) : CtlMove cfg c mp phy { c with state := .idle, cfgPending := pending, cfgDie := die }

section Moves

variable {cfg : Cfg} {c c' : Ctl} {mp : PortIn} {phy : PhyIn}

theorem setState_eq_enter (hg : c.gate = true) (st : CtlState) : { c with state := st } = c.enter st 0 := by
  rw [Ctl.enter, ← (gate_iff c).1 hg]

theorem tickIdle_move (hs : c.state = .idle) (hg : c.gate = true) : CtlMove cfg c mp phy (c.tickIdle cfg mp phy) := by
  have hw : mayWait c = true := by simp [mayWait, hs]
  unfold Ctl.tickIdle
  split
  next hl =>
    split
    next hp => exact .autocfg hg hs hl hp
    next hp =>
      split
      next hv => exact .command hg hs hl (by simpa using hp) hv
      next => exact .wait hg hw
  next => exact .wait hg hw

theorem tickSelectOp_move (hs : c.state = .selectOp) (hg : c.gate = true) : CtlMove cfg c mp phy (c.tickSelectOp cfg mp) := by
  unfold Ctl.tickSelectOp
  split
  next hr => exact .follow _ _ hg (by simp [hs]) (by simp [successors, hs, hr]) nofun nofun (by simp [hs])
  next hr =>
    split
    next hg' =>
      have toEnd : CtlMove cfg c mp phy (c.enter .endWrite cfg.endwDly) :=
        .follow _ _ hg (by simp [hs]) (by simp [successors, hs, hr, hg']) nofun nofun (by simp [hs])
      split
      · exact toEnd
      next ha =>
        split
        · split
          · exact toEnd
          · rw [setState_eq_enter hg]
            exact .follow _ _ hg (by simp [hs]) (by simp [successors, hs, hr, hg']) (fun _ => rfl) (fun _ => by simpa using ha)
              (by simp [hs])
        · exact .wait hg (by simp [mayWait, hs, Ctl.regWritePath, hr, hg', ha])
    next hg' => exact .follow _ _ hg (by simp [hs]) (by simp [successors, hs, hr, hg']) nofun nofun (by simp [hs])

theorem tickStream_move (hs : c.state = .write ∨ c.state = .writeReg) (hg : c.gate = true) :
    CtlMove cfg c mp phy (c.tickStream cfg mp) := by
  unfold Ctl.tickStream
  split
  · rcases hs with hs | hs <;>
      exact .follow _ _ hg (by simp [hs]) (by simp [successors, hs]) nofun nofun (by simp [hs])
  · rcases hs with hs | hs <;> exact .wait hg (by simp [mayWait, hs])

theorem tickRead_move (hs : c.state = .read) (hg : c.gate = true) : CtlMove cfg c mp phy (c.tickRead mp phy) := by
  unfold Ctl.tickRead
  split
  next hw =>
    simp only [Bool.and_eq_true] at hw
    obtain ⟨⟨hword, -⟩, -⟩ := hw
    rw [setState_eq_enter hg]
    exact .follow _ _ hg (by simp [hs]) (by simp [successors, hs]) (fun _ => rfl) nofun (fun _ => hword)
  · exact .wait hg (by simp [mayWait, hs])

theorem tickEndRead_move (hs : c.state = .endRead) (hg : c.gate = true) : CtlMove cfg c mp phy c.tickEndRead := by
  unfold Ctl.tickEndRead
  split
  · split
    · exact .finish false c.cfgDie hg hs nofun
    · exact .finish c.cfgPending (c.cfgDie - 1#1) hg hs id
  · exact .finish c.cfgPending c.cfgDie hg hs id

/-- Every tick of the Controller is one of the moves. -/
theorem tick_move (cfg : Cfg) (c : Ctl) (mp : PortIn) (phy : PhyIn) : CtlMove cfg c mp phy (c.tick cfg mp phy) := by
  cases hg : c.gate with
  | false =>
    rw [tick_of_not_gate hg]
    exact .count hg
  | true =>
    rw [tick_of_gate hg, Ctl.tickOpen]
    cases hs : c.state with
    | idle => exact tickIdle_move hs hg
    | caWord0 | caWord1 | caWord2 | endWrite =>
      simp only [setState_eq_enter hg]
      exact .follow _ 0 hg (by simp [hs]) (by simp [successors, hs]) (fun _ => rfl) nofun (by simp [hs])
    | selectOp => exact tickSelectOp_move hs hg
    | writeDelay | readDelay => exact .follow _ _ hg (by simp [hs]) (by simp [successors, hs]) nofun nofun (by simp [hs])
    | write => exact tickStream_move (.inl hs) hg
    | writeReg => exact tickStream_move (.inr hs) hg
    | read => exact tickRead_move hs hg
    | endRead => exact tickEndRead_move hs hg

/-- Only `END_READ` writes `cfg_pending`, and only to clear it (10_state.md R32 (ii)). -/
theorem CtlMove.cfgPending (hm : CtlMove cfg c mp phy c') (h : c'.cfgPending = true) : c.cfgPending = true := by
  cases hm with
  | finish _ _ _ _ falls => exact falls h
  | count | wait | autocfg | command | follow => exact h

/-- The packet and the autonomous flag change only at a launch. -/
theorem CtlMove.packet (hm : CtlMove cfg c mp phy c') (hi : c.state ≠ .idle) : c'.ca = c.ca ∧ c'.autoTxn = c.autoTxn := by
  cases hm with
  | autocfg _ idle | command _ idle => exact absurd idle hi
  | count | wait | follow | finish => exact ⟨rfl, rfl⟩

end Moves

/-- The packet chose the state (41_controller.md R191). -/
def OnPath (c : Ctl) : Prop :=
  match c.state with
  | .writeDelay | .write => caRead c.ca = false ∧ caReg c.ca = false
  | .writeReg => caRead c.ca = false ∧ caReg c.ca = true ∧ c.autoTxn = false
  | .readDelay | .read => caRead c.ca = true
  | .endWrite => caRead c.ca = false
  | .idle | .caWord0 | .caWord1 | .caWord2 | .selectOp | .endRead => True

/-- `OnPath` is the four path clauses of `CoreInv`. -/
theorem onPath_iff (c : Ctl) :
    OnPath c ↔ (c.state = .writeDelay ∨ c.state = .write → caRead c.ca = false ∧ caReg c.ca = false) ∧
      (c.state = .writeReg → caRead c.ca = false ∧ caReg c.ca = true ∧ c.autoTxn = false) ∧
      (c.state = .readDelay ∨ c.state = .read → caRead c.ca = true) ∧ (c.state = .endWrite → caRead c.ca = false) := by
  unfold OnPath
  cases c.state <;> simp

/-- A successor is on the path its packet chooses. -/
theorem onPath_enter {c : Ctl} {st : CtlState} (load : Nat) (hc : OnPath c) (hst : st ∈ successors c)
    (ha : st = .writeReg → c.autoTxn = false) : OnPath (c.enter st load) := by
  unfold OnPath at hc
  unfold successors at hst
  cases hs : c.state with
  | selectOp =>
    cases hr : caRead c.ca <;> cases hg : caReg c.ca <;> simp [hs, hr, hg] at hst
    · simp [hst, OnPath, hr, hg]
    · rcases hst with rfl | rfl <;> simp [OnPath, hr, hg, ha]
    all_goals simp [hst, OnPath, hr]
  | idle | caWord0 | caWord1 | caWord2 | writeDelay | write | writeReg | endWrite | readDelay | read | endRead =>
    simp [hs] at hst hc
    simp [hst, OnPath, hc]

/-- The clauses of `CoreInv` that speak of the Controller alone. -/
structure CtlInv (c : Ctl) : Prop where
  counting : c.dlycnt ≠ 0#8 → CtlState.counting c.state = true
  autoWrites : c.autoTxn = true → caRead c.ca = false ∧ caReg c.ca = true
  pendingAuto : c.cfgPending = true → c.state = .idle ∨ c.autoTxn = true
  autoPending : c.autoTxn = true → c.state ≠ .idle → c.cfgPending = true
  reserved : c.ca.extractLsb' 3 13 = 0#13
  path : OnPath c

theorem CtlInv.of_core {s : CoreState} (h : CoreInv s) : CtlInv s.ctl where
  counting := h.counting
  autoWrites := h.autoWrites
  pendingAuto := h.pendingAuto
  autoPending := h.autoPending
  reserved := h.reserved
  path := (onPath_iff _).2 ⟨h.memPath, h.regPath, h.readPath, h.endPath⟩

section Kept

variable {cfg : Cfg} {c c' : Ctl} {mp : PortIn} {phy : PhyIn}

/-- With the invariant the counter is 0 where it never runs (10_state.md R32 (i)). -/
theorem CtlInv.dlycnt_eq_zero (h : CtlInv c) (hc : CtlState.counting c.state = false) : c.dlycnt = 0#8 := by
  by_contra hne
  simp [h.counting hne] at hc

theorem ctlInv_launch_autocfg (h : CtlInv c) (hi : c.state = .idle) (hp : c.cfgPending = true) (die : BitVec 1) :
    CtlInv (c.launch (caAutocfg cfg die) true) where
  counting hne := absurd (h.dlycnt_eq_zero (by simp [hi, CtlState.counting])) hne
  autoWrites _ := by simp [caAutocfg, regCmd]
  pendingAuto _ := .inr rfl
  autoPending _ _ := hp
  reserved := caOf_reserved _
  path := trivial

theorem ctlInv_launch_command (h : CtlInv c) (hi : c.state = .idle) (hp : c.cfgPending = false) (cmd : Cmd) :
    CtlInv (c.launch (caOf cmd) false) where
  counting hne := absurd (h.dlycnt_eq_zero (by simp [hi, CtlState.counting])) hne
  autoWrites := nofun
  pendingAuto hp' := absurd hp' (by simp [hp])
  autoPending := nofun
  reserved := caOf_reserved _
  path := trivial

theorem ctlInv_enter (h : CtlInv c) {st : CtlState} {load : Nat} (hi : c.state ≠ .idle) (hst : st ∈ successors c)
    (hl : CtlState.counting st = false → load = 0) (ha : st = .writeReg → c.autoTxn = false) : CtlInv (c.enter st load) where
  counting hne := by
    by_contra hn
    exact hne (by simp [hl (by simpa using hn)])
  autoWrites := h.autoWrites
  pendingAuto hp := .inr ((h.pendingAuto hp).resolve_left hi)
  autoPending hauto _ := h.autoPending hauto hi
  reserved := h.reserved
  path := onPath_enter load h.path hst ha

theorem ctlInv_finish (h : CtlInv c) (he : c.state = .endRead) (pending : Bool) (die : BitVec 1) :
    CtlInv { c with state := .idle, cfgPending := pending, cfgDie := die } where
  counting hne := absurd (h.dlycnt_eq_zero (by simp [he, CtlState.counting])) hne
  autoWrites := h.autoWrites
  pendingAuto _ := .inl rfl
  autoPending _ hi := absurd rfl hi
  reserved := h.reserved
  path := trivial

theorem CtlInv.move (h : CtlInv c) (hm : CtlMove cfg c mp phy c') : CtlInv c' := by
  cases hm with
  | count closed =>
    exact { h with counting := fun _ => h.counting (by simpa [Ctl.gate] using closed) }
  | wait => exact h
  | autocfg _ idle _ pending => exact ctlInv_launch_autocfg h idle pending _
  | command _ idle _ done => exact ctlInv_launch_command h idle done _
  | follow st load _ running succ load_zero not_auto => exact ctlInv_enter h running succ load_zero not_auto
  | finish pending die _ ending => exact ctlInv_finish h ending pending die

end Kept

end Sys2Proof.Proofs
end

section
/-! Proofs about one tick of RegisterSpace, and about the wires between it and the Controller: its wait states go with the
transaction in flight (43_registerspace.md R302 to R308, R324). -/

namespace Sys2Proof.Proofs

open Sys2Proof Sys2Proof.Machine Sys2Proof.Safety Sys2Proof.Laws

section RegisterSpace

variable {r : Rs} {rp : PortOut} {csr : CsrIn}

/-- RegisterSpace latches a CSR word only where its state machine rests (60_exceptions.md R379 (f)). -/
theorem rsTick_latch_or_advance (r : Rs) (rp : PortOut) (csr : CsrIn) :
    (r.busy = false ∧ r.tick rp csr = r.latch csr.wdata) ∨ r.tick rp csr = r.advance rp := by
  rcases rsTick_cases r rp csr with ⟨hb, -, ht⟩ | ⟨-, ht⟩
  · have hrest : r.advance rp = r := rsTick_idle hb rp (csr := CsrIn.quiet) rfl
    exact .inl ⟨hb, by rw [ht, hrest]⟩
  · exact .inr ht

/-- Set-up, once done, stays done (10_state.md R32 (ii)). -/
theorem rsTick_setupDone (h : r.setupDone = true) : (r.tick rp csr).setupDone = true := by
  rcases rsTick_latch_or_advance r rp csr with ⟨-, ht⟩ | ht <;> rw [ht]
  · exact h
  · exact advance_setupDone rp h

/-- The clauses of `CoreInv` that speak of RegisterSpace alone. -/
structure RsInv (r : Rs) : Prop where
  strobe : r.strobePending = true → r.state = .start ∧ r.setupDone = true
  setupWrites : r.setupDone = false → r.we = true

theorem RsInv.latch (hb : r.busy = false) (w : CsrWord) : RsInv (r.latch w) := by
  obtain ⟨hs, hd, -⟩ := (busy_eq_false_iff r).1 hb
  exact ⟨fun _ => ⟨hs, hd⟩, fun hd' => absurd hd' (by simp [hd])⟩

theorem RsInv.advance (h : RsInv r) (rp : PortOut) : RsInv (r.advance rp) := by
  have noStrobe (hs : r.state ≠ .start) : r.strobePending ≠ true := fun hp => hs (h.strobe hp).1
  rcases advance_cases r rp with
    ⟨e, -⟩ | ⟨-, -, e⟩ | ⟨hs, -, e⟩ | ⟨hs, -, -, e⟩ | ⟨hs, -, -, -, e⟩ | ⟨hs, -, -, -, e⟩ | ⟨hs, -, e⟩ <;>
    rw [e]
  · exact h
  · exact ⟨nofun, h.setupWrites⟩
  case inr.inr.inr.inr.inl => exact ⟨fun hp => absurd hp (noStrobe (by simp [hs])), nofun⟩
  all_goals exact ⟨fun hp => absurd hp (noStrobe (by simp [hs])), h.setupWrites⟩

theorem RsInv.tick (h : RsInv r) (rp : PortOut) (csr : CsrIn) : RsInv (r.tick rp csr) := by
  rcases rsTick_latch_or_advance r rp csr with ⟨hb, ht⟩ | ht <;> rw [ht]
  · exact .latch hb _
  · exact h.advance rp

/-- The states of a register access past its command are entered with the transfer of the command, and held
while no word passes. -/
theorem rsTick_accessing (hs : (r.tick rp csr).state ≠ .start) (hc : (r.tick rp csr).state ≠ .waitCmd) :
    (r.state = .waitCmd ∧ rp.cmdReady = true ∧ r.tick rp csr = { r with state := if r.we then .waitWrite else .waitRead }) ∨
    (r.tick rp csr = r ∧ (r.state = .waitWrite ∧ rp.wdataReady = false ∨ r.state = .waitRead ∧ rp.rdataValid = false)) := by
  rcases rsTick_latch_or_advance r rp csr with ⟨hb, ht⟩ | ht <;> rw [ht] at hs hc ⊢
  · exact absurd ((busy_eq_false_iff r).1 hb).1 hs
  · rcases advance_cases r rp with
      ⟨e, ⟨h, -⟩ | ⟨h, -⟩ | held⟩ | ⟨-, -, e⟩ | ⟨h, hr, e⟩ | ⟨-, -, -, e⟩ | ⟨-, -, -, -, e⟩ | ⟨-, -, -, -, e⟩ | ⟨-, -, e⟩ <;>
      rw [e] at hs hc ⊢
    · exact absurd h hs
    · exact absurd h hc
    · exact .inr ⟨rfl, held⟩
    · exact absurd rfl hc
    · exact .inl ⟨h, hr, rfl⟩
    all_goals exact absurd rfl hs

/-- `WAIT_WRITE` is entered with the transfer of a write command and kept while no word is taken. -/
theorem rsTick_waitWrite (h : (r.tick rp csr).state = .waitWrite) :
    (r.tick rp csr).we = r.we ∧
      (r.state = .waitCmd ∧ rp.cmdReady = true ∧ r.we = true ∨ r.state = .waitWrite ∧ rp.wdataReady = false) := by
  rcases rsTick_accessing (r := r) (rp := rp) (csr := csr) (by simp [h]) (by simp [h]) with
    ⟨hs, hr, e⟩ | ⟨e, held⟩ <;> rw [e] at h ⊢
  · exact ⟨rfl, .inl ⟨hs, hr, by simpa using h⟩⟩
  · exact ⟨rfl, .inr (by simpa [h] using held)⟩

/-- `WAIT_READ` is entered with the transfer of a read command and kept while no word arrives. -/
theorem rsTick_waitRead (h : (r.tick rp csr).state = .waitRead) :
    (r.tick rp csr).we = r.we ∧ (r.tick rp csr).setupDone = r.setupDone ∧
      (r.state = .waitCmd ∧ rp.cmdReady = true ∧ r.we = false ∨ r.state = .waitRead ∧ rp.rdataValid = false) := by
  rcases rsTick_accessing (r := r) (rp := rp) (csr := csr) (by simp [h]) (by simp [h]) with
    ⟨hs, hr, e⟩ | ⟨e, held⟩ <;> rw [e] at h ⊢
  · exact ⟨rfl, rfl, .inl ⟨hs, hr, by simpa using h⟩⟩
  · exact ⟨rfl, rfl, .inr (by simpa [h] using held)⟩

end RegisterSpace

section Wires

variable {cfg : Cfg} {s : CoreState} {i : Inputs}

/-- The Controller offers `cmd.ready` in `IDLE` only, with the gate open, the PHY locked and no configuration write pending. -/
theorem mpOut_cmdReady_iff :
    (s.mpOut i).cmdReady = true ↔
      s.ctl.state = .idle ∧ s.ctl.gate = true ∧ i.phy.pllLocked = true ∧ s.ctl.cfgPending = false := by
  simp [CoreState.mpOut, Ctl.portOut, and_assoc]

/-- During lockout, and with the priority bit set in a cycle with the Controller busy, the register port stays connected. -/
theorem advance_regSelect (h : s.rs.setupDone = false ∨ s.xb.regSelect = true ∧ s.ctl.state ≠ .idle) :
    (s.advance cfg i).xb.regSelect = true := by
  rw [advance_xb, xbTick_eq]
  rcases h with hd | ⟨hr, hi⟩
  · simp [CoreState.lockout, hd]
  · simp [mpOut_cmdReady_of_not_idle i hi, hr]

/-- A register command that is transferred is launched, and keeps the register port connected (42_crossbar.md R270). -/
theorem advance_of_registerCommand (hw : s.rs.state = .waitCmd) (hr : (s.rpOut i).cmdReady = true) :
    (s.advance cfg i).ctl = s.ctl.launch (caOf (regCmd cfg s.rs.we s.rs.dieNr s.rs.regType s.rs.regNr)) false ∧
      (s.advance cfg i).xb.regSelect = true := by
  simp only [CoreState.rpOut, xbToReg, Bool.and_eq_true] at hr
  obtain ⟨hsel, hready⟩ := hr
  obtain ⟨hs, hg, hl, hp⟩ := mpOut_cmdReady_iff.1 hready
  constructor
  · simp [tick_of_gate hg, Ctl.tickOpen, hs, Ctl.tickIdle, hl, hp, CoreState.mpIn, hsel, Rs.port, hw]
  · rw [advance_xb, xbTick_eq]
    simp [hready, Rs.port, hw]

end Wires

section InFlight

variable {cfg : Cfg} {c c' : Ctl} {mp : PortIn} {phy : PhyIn}

theorem ne_idle_of_opening (h : CtlState.opening c.state = true) : c.state ≠ .idle := by
  intro hi
  simp [hi, CtlState.opening] at h

/-- Before its data a register write moves towards `SELECT_OP`, and does not leave that without asking for its word. -/
theorem CtlMove.opening_of_regWrite (hm : CtlMove cfg c mp phy c') (ho : CtlState.opening c.state = true)
    (hp : c.regWritePath = true) (ha : c.autoTxn = false) (hw : (c.portOut phy).wdataReady = false) :
    CtlState.opening c'.state = true := by
  cases hm with
  | count | wait => exact ho
  | autocfg => rfl
  | command => rfl
  | finish _ _ _ ending => simp [ending, CtlState.opening] at ho
  | follow st load gate running succ =>
    unfold successors at succ
    cases hs : c.state with
    | caWord0 | caWord1 | caWord2 => simp [hs] at succ; simp [succ, CtlState.opening]
    | selectOp => simp [Ctl.portOut, hs, gate, hp, ha] at hw
    | idle | writeDelay | write | writeReg | endWrite | readDelay | read | endRead => simp [hs, CtlState.opening] at ho

/-- Up to its first word a read is in flight. -/
def ReadInFlight (st : CtlState) : Prop := CtlState.opening st = true ∨ st = .readDelay ∨ st = .read

theorem ne_idle_of_readInFlight (h : ReadInFlight c.state) : c.state ≠ .idle := by
  rcases h with ho | hs | hs
  · exact ne_idle_of_opening ho
  all_goals simp [hs]

/-- A read in flight stays so until it offers a word. -/
theorem CtlMove.readInFlight (hm : CtlMove cfg c mp phy c') (hf : ReadInFlight c.state) (hr : caRead c.ca = true)
    (hw : (c.portOut phy).rdataValid = false) : ReadInFlight c'.state := by
  cases hm with
  | count | wait => exact hf
  | autocfg _ idle | command _ idle => exact absurd idle (ne_idle_of_readInFlight hf)
  | finish _ _ _ ending => simp [ending, ReadInFlight, CtlState.opening] at hf
  | follow st load _ _ succ _ _ word =>
    unfold successors at succ
    cases hs : c.state with
    | caWord0 | caWord1 | caWord2 | selectOp | readDelay =>
      simp [hs, hr] at succ
      simp [succ, ReadInFlight, CtlState.opening]
    | read => simp [word hs] at hw
    | idle | writeDelay | write | writeReg | endWrite | endRead => simp [hs, ReadInFlight, CtlState.opening] at hf

end InFlight

end Sys2Proof.Proofs
end

section
/-! Proofs about reset and the invariant (10_state.md R30, R32): the invariant holds at reset, every cycle keeps it, and so does
every step. -/

namespace Sys2Proof.Proofs

open Sys2Proof Sys2Proof.Machine Sys2Proof.Safety Sys2Proof.Laws

section Core

variable {s : CoreState}

/-- With the invariant the priority bit alone selects: lockout keeps it set. -/
theorem sel_of_regSelect (h : s.xb.regSelect = true) : s.sel = true := by simp [CoreState.sel, h]

/-- A cycle without reset keeps the clause of `WAIT_WRITE`. -/
theorem waitWrite_advance (h : CoreInv s) (cfg : Cfg) (i : Inputs) (hw : (s.advance cfg i).rs.state = .waitWrite) :
    (s.advance cfg i).rs.we = true ∧ (s.advance cfg i).xb.regSelect = true ∧
      CtlState.opening (s.advance cfg i).ctl.state = true ∧ caRead (s.advance cfg i).ctl.ca = false ∧
      caReg (s.advance cfg i).ctl.ca = true ∧ (s.advance cfg i).ctl.autoTxn = false := by
  obtain ⟨hwe, ⟨hs, hready, hwrite⟩ | ⟨hs, hnone⟩⟩ := rsTick_waitWrite hw
  · obtain ⟨hctl, hsel⟩ := advance_of_registerCommand (cfg := cfg) hs hready
    rw [hctl]
    exact ⟨hwe.trans hwrite, hsel, rfl, by simp [regCmd, hwrite], by simp [regCmd], rfl⟩
  · obtain ⟨hwrite, hsel, hopen, hread, hreg, hauto⟩ := h.waitWrite hs
    have hi := ne_idle_of_opening hopen
    have hm := tick_move cfg s.ctl (s.mpIn cfg i) i.phy
    obtain ⟨hca, hat⟩ := hm.packet hi
    have hword : (s.ctl.portOut i.phy).wdataReady = false := by
      simpa [CoreState.rpOut, CoreState.mpOut, xbToReg, sel_of_regSelect hsel] using hnone
    refine ⟨hwe.trans hwrite, advance_regSelect (.inr ⟨hsel, hi⟩), ?_, ?_, ?_, hat.trans hauto⟩
    · exact hm.opening_of_regWrite hopen (by simp [Ctl.regWritePath, hread, hreg]) hauto hword
    · rw [advance_ctl, hca, hread]
    · rw [advance_ctl, hca, hreg]

/-- A cycle without reset keeps the clause of `WAIT_READ`. -/
theorem waitRead_advance (h : CoreInv s) (cfg : Cfg) (i : Inputs) (hw : (s.advance cfg i).rs.state = .waitRead) :
    (s.advance cfg i).rs.we = false ∧ (s.advance cfg i).rs.setupDone = true ∧ (s.advance cfg i).xb.regSelect = true ∧
      ReadInFlight (s.advance cfg i).ctl.state ∧ caRead (s.advance cfg i).ctl.ca = true ∧
      (s.advance cfg i).ctl.autoTxn = false := by
  obtain ⟨hwe, hdone, ⟨hs, hready, hwrite⟩ | ⟨hs, hnone⟩⟩ := rsTick_waitRead hw
  · obtain ⟨hctl, hsel⟩ := advance_of_registerCommand (cfg := cfg) hs hready
    have hsetup : s.rs.setupDone = true := by
      by_contra hd
      simp [h.setupWrites (by simpa using hd)] at hwrite
    rw [hctl]
    exact ⟨hwe.trans hwrite, hdone.trans hsetup, hsel, .inl rfl, by simp [regCmd, hwrite], rfl⟩
  · obtain ⟨hwrite, hsetup, hsel, hflight, hread, hauto⟩ := h.waitRead hs
    have hi := ne_idle_of_readInFlight hflight
    have hm := tick_move cfg s.ctl (s.mpIn cfg i) i.phy
    obtain ⟨hca, hat⟩ := hm.packet hi
    have hword : (s.ctl.portOut i.phy).rdataValid = false := by
      simpa [CoreState.rpOut, CoreState.mpOut, xbToReg, sel_of_regSelect hsel] using hnone
    refine ⟨hwe.trans hwrite, hdone.trans hsetup, advance_regSelect (.inr ⟨hsel, hi⟩), ?_, ?_, hat.trans hauto⟩
    · exact hm.readInFlight hflight hread hword
    · rw [advance_ctl, hca, hread]

theorem coreInv_advance (h : CoreInv s) (cfg : Cfg) (i : Inputs) : CoreInv (s.advance cfg i) :=
  have hc : CtlInv (s.advance cfg i).ctl := (CtlInv.of_core h).move (tick_move cfg s.ctl (s.mpIn cfg i) i.phy)
  have hr : RsInv (s.advance cfg i).rs := RsInv.tick ⟨h.strobe, h.setupWrites⟩ _ _
  have ⟨hmem, hreg, hread, hend⟩ := (onPath_iff _).1 hc.path
  { counting := hc.counting
    autoWrites := hc.autoWrites
    lockedOut := fun hd => advance_regSelect <| .inl <| by
      by_contra hd'
      simp [rsTick_setupDone (by simpa using hd')] at hd
    pendingAuto := hc.pendingAuto
    autoPending := hc.autoPending
    reserved := hc.reserved
    memPath := hmem
    regPath := hreg
    readPath := hread
    endPath := hend
    strobe := hr.strobe
    setupWrites := hr.setupWrites
    waitWrite := waitWrite_advance h cfg i
    waitRead := waitRead_advance h cfg i }

theorem coreInv_reset (cfg : Cfg) : CoreInv (CoreState.reset cfg) := by
  constructor <;> simp [Ctl.reset, Rs.reset]

theorem coreInv_tick (h : CoreInv s) (cfg : Cfg) (i : Inputs) : CoreInv (s.tick cfg i) := by
  cases hr : i.reset with
  | true => rw [tick_of_reset cfg s i hr]; exact coreInv_reset cfg
  | false => rw [tick_of_not_reset cfg s i hr]; exact coreInv_advance h cfg i

end Core

section Device

variable {cfg : Cfg} {d : Device}

theorem takeSlot_canonical (h : memWf d.mem = true) (n : Nat) (b : BusOut) : memWf (d.takeSlot cfg n b).mem = true := by
  rcases takeSlot_cases cfg n d b with ⟨-, e⟩ | ⟨-, -, -, e⟩ | ⟨-, -, -, -, e⟩ | ⟨-, e⟩ <;> rw [e]
  · exact h
  · unfold Device.writeReg
    (repeat' split) <;> exact h
  · exact memWf_devWriteMem _ _ _ _ _ h
  · exact h

theorem busCycle_canonical (h : memWf d.mem = true) (n : Nat) (b : BusOut) : memWf (d.busCycle cfg n b).1.mem = true := by
  cases hc : b.cs with
  | false => rw [busCycle_released cfg n d b hc]; exact h
  | true =>
    cases hk : b.clkEn with
    | false => rw [busCycle_stopped cfg n d b hc hk]; exact h
    | true =>
      rw [busCycle_clocked cfg n d b hc hk]
      exact takeSlot_canonical (by simpa using h) n b

theorem deviceInv_tick (h : DeviceInv cfg d) (n : Nat) (b : BusOut) : DeviceInv cfg (d.tick cfg n b) where
  canonical := busCycle_canonical h.canonical n _
  txDepth := (tick_txq_length cfg n d b).trans h.txDepth
  rxDepth := (tick_rxq_length cfg n d b).trans h.rxDepth

theorem deviceInv_reset (cfg : Cfg) : DeviceInv cfg (Device.reset cfg) where
  canonical := memWf_reset cfg
  txDepth := List.length_replicate
  rxDepth := List.length_replicate

end Device

theorem machineInv_clock (s : State) (h : MachineInv s) : MachineInv s.clock where
  core := coreInv_tick h.core _ _
  device := by
    intro d' hd'
    obtain ⟨d, hd, rfl⟩ := Option.map_eq_some_iff.1 hd'
    exact deviceInv_tick (h.device d hd) _ _

theorem machineInv_resetWith (cfg : Cfg) : MachineInv (State.resetWith cfg) where
  core := coreInv_reset cfg
  device := by
    rintro _ ⟨⟩
    exact deviceInv_reset cfg

/-- Settles O15: every cycle keeps the invariant, and it does not speak of the request. -/
theorem invariantKeptByEveryStep : Obligations.InvariantKeptByEveryStep := fun _ _ h hstep =>
  step_induction machineInv_clock (fun _ _ hs => ⟨hs.core, hs.device⟩) h hstep

/-- Settles O14. -/
theorem invariantAtReset : Obligations.InvariantAtReset :=
  ⟨machineInv_resetWith, machineInv_resetWith _⟩

/-! ## The start-up flags -/

/-- A cycle without reset re-arms neither start-up flag. -/
theorem advance_startUp (cfg : Cfg) (s : CoreState) (i : Inputs) :
    (s.ctl.cfgPending = false → (s.advance cfg i).ctl.cfgPending = false) ∧
      (s.rs.setupDone = true → (s.advance cfg i).rs.setupDone = true) := by
  refine ⟨fun hp => ?_, rsTick_setupDone⟩
  by_contra hp'
  simp [(tick_move cfg s.ctl (s.mpIn cfg i) i.phy).cfgPending (by simpa using hp')] at hp

/-- No reset is scheduled, and the start-up flags of `s` that were settled are still settled. -/
structure StartUpKept (s t : State) : Prop where
  noReset : ∀ i ∈ t.sched, i.reset = false
  cfgPending : s.core.ctl.cfgPending = false → t.core.ctl.cfgPending = false
  setupDone : s.core.rs.setupDone = true → t.core.rs.setupDone = true

theorem startUpKept_clock (s t : State) (h : StartUpKept s t) : StartUpKept s t.clock := by
  have hcore : t.clock.core = t.core.advance t.cfg t.inputs := tick_of_not_reset _ _ _ (inputs_reset_eq_false h.noReset)
  obtain ⟨hpending, hdone⟩ := advance_startUp t.cfg t.core t.inputs
  rw [← hcore] at hpending hdone
  exact ⟨fun i hi => h.noReset i (List.mem_of_mem_tail hi), hpending ∘ h.cfgPending, hdone ∘ h.setupDone⟩

/-- Settles O16: a cycle without reset re-arms neither flag, and no cycle of the step has one. -/
theorem startUpFlagsNeverRearm : Obligations.StartUpFlagsNeverRearm := by
  intro s t hreset hstep
  have hkept : StartUpKept s t :=
    step_induction (startUpKept_clock s) (fun _ _ h => ⟨h.noReset, h.cfgPending, h.setupDone⟩) ⟨hreset, id, id⟩ hstep
  exact ⟨hkept.cfgPending, hkept.setupDone⟩

/-! ## The reset table -/

/-- The value of a CSR word is its lower half, and nothing else of the word depends on it. -/
theorem csrWordOf_eq_or (busy strobe we : Bool) (die : BitVec 2) (type : BitVec 8) (nr : BitVec 3) (value : HalfWord) :
    csrWordOf busy strobe we die type nr value = csrWordOf busy strobe we die type nr 0#16 ||| value.zeroExtend 32 := by
  apply BitVec.eq_of_getLsbD_eq
  intro i hi
  simp only [csrWordOf, BitVec.getLsbD_append, BitVec.getLsbD_or]
  by_cases h : i < 16
  · simp [h]; omega
  · simp [h, BitVec.getLsbD_of_ge value i (by omega)]

theorem csrRdata_reset (cfg : Cfg) :
    (Rs.reset cfg).csrRdata = csrWordOf true false true (BitVec.ofNat 2 (cfg.nbanks - 1)) 1#8 0#3 0#16 ||| cfg.cr0.zeroExtend 32 :=
  csrWordOf_eq_or _ _ _ _ _ _ _

/-- Settles O12: the tick is `CoreState.reset`, whose fields are the table's; the die numbers fit because there are at most two. -/
theorem resetTable : Obligations.ResetTable := by
  intro cfg s i hbanks hreset
  rw [tick_of_reset cfg s i hreset]
  have hctl : (Ctl.reset cfg).cfgDie.toNat = cfg.nbanks - 1 := by simp [Ctl.reset]; omega
  have hrs : (Rs.reset cfg).dieNr.toNat = cfg.nbanks - 1 := by simp [Rs.reset]; omega
  have hcsr : (Rs.reset cfg).csrRdata
      = 0xA0080000#32 ||| (BitVec.ofNat 32 (cfg.nbanks - 1) <<< 27) ||| cfg.cr0.zeroExtend 32 := by
    rw [csrRdata_reset]
    rcases hbanks with h | h <;> rw [h] <;> rfl
  exact ⟨rfl, rfl, rfl, rfl, rfl, hctl, rfl, rfl, rfl, rfl, rfl, rfl, rfl, hrs, rfl, hcsr, rfl⟩

end Sys2Proof.Proofs
end

section
/-! Proofs about the memory of the reference device: what one bus cycle can store, and what a half-word written reads back as
(20_memory.md R103, R104). -/

namespace Sys2Proof.Proofs

open Sys2Proof Sys2Proof.Machine Sys2Proof.Laws

/-! ## What one bus cycle can store -/

section BusCycle

variable {cfg : Cfg} {n : Nat} {d : Device} {b : BusOut}

/-- The latency is drawn in the first slot only. -/
theorem draw_of_slot_ne_zero (h : d.slot ≠ 0) : d.draw n b = d := by simp [Device.draw, h]

/-- A register write touches neither the memory nor the packet. -/
theorem writeReg_mem_ca (die : Bool) (ha : HalfAddr) (v : HalfWord) :
    (d.writeReg die ha v).mem = d.mem ∧ (d.writeReg die ha v).ca = d.ca := by
  unfold Device.writeReg
  (repeat' split) <;> exact ⟨rfl, rfl⟩

/-- A bus cycle leaves the memory as it was, or it is a clocked data slot of a memory write and stores its half-word. -/
theorem busCycle_mem_cases (cfg : Cfg) (n : Nat) (d : Device) (b : BusOut) :
    (d.busCycle cfg n b).1.mem = d.mem ∨
    (b.cs = true ∧ b.clkEn = true ∧ 3 ≤ d.slot ∧ caRead d.ca = false ∧ caReg d.ca = false ∧ 2 + d.latency cfg ≤ d.slot ∧
      (d.busCycle cfg n b).1.mem =
        devWriteMem d.mem (d.die cfg) (d.dataAddr cfg) (b.sampledDq n) (~~~(b.sampledRwds n))) := by
  cases hc : b.cs with
  | false => exact .inl (by rw [busCycle_released cfg n d b hc])
  | true =>
    cases hk : b.clkEn with
    | false => exact .inl (by rw [busCycle_stopped cfg n d b hc hk])
    | true =>
      rw [busCycle_clocked cfg n d b hc hk]
      rcases takeSlot_cases cfg n (d.draw n b) b with ⟨-, e⟩ | ⟨-, -, -, e⟩ | ⟨h3, hread, hreg, hdata, e⟩ | ⟨-, e⟩
      · exact .inl (by simp [e])
      · exact .inl (by simp [e, writeReg_mem_ca])
      · rw [draw_slot] at h3
        rw [draw_of_slot_ne_zero (by omega)] at hread hreg hdata e ⊢
        exact .inr ⟨rfl, rfl, h3, hread, hreg, hdata, by simp [e]⟩
      · exact .inl (by simp [e])

end BusCycle

/-- A byte that a half-word write changes is one of the half-word's two, and enabled or not written before. -/
theorem devWriteMem_changes {m : List Host.Cell} {die : Bool} {ha : HalfAddr} {v : HalfWord} {mask : Mask} {k : Nat}
    (h : memGet (devWriteMem m die ha v mask) k ≠ memGet m k) :
    mask ≠ 0b00#2 ∧
      ((k = byteKey die ha false ∧ (mask.getLsbD 1 = true ∨ memGet m k = none)) ∨
        (k = byteKey die ha true ∧ (mask.getLsbD 0 = true ∨ memGet m k = none))) := by
  have kept (x : Byte) (bit : Bool) (hx : some (if bit then x else (memGet m k).getD 0#8) ≠ memGet m k) :
      bit = true ∨ memGet m k = none := by
    cases bit with
    | true => exact .inl rfl
    | false => cases hm : memGet m k <;> simp [hm] at hx ⊢
  rw [memGet_devWriteMem] at h
  split at h
  next => exact absurd rfl h
  next hmask =>
    refine ⟨hmask, ?_⟩
    split at h
    next hlow => exact .inr ⟨hlow, kept _ _ h⟩
    next =>
      split at h
      next hhigh => exact .inl ⟨hhigh, kept _ _ h⟩
      next => exact absurd rfl h

/-- Settles O48: a cycle that changes the memory is a data slot of a memory write, and the half-word write it makes, its mask the
inverted RWDS, changes no other byte. -/
theorem busCycleMemoryFrame : Obligations.BusCycleMemoryFrame := by
  intro cfg n d b k hne
  rcases busCycle_mem_cases cfg n d b with e | ⟨hc, hk, h3, hread, hreg, hdata, e⟩
  · exact absurd (by rw [e]) hne
  · rw [e] at hne
    obtain ⟨hmask, hbyte⟩ := devWriteMem_changes hne
    have hrwds : b.sampledRwds n ≠ 0b11#2 := fun h => hmask (by rw [h]; rfl)
    exact ⟨hc, hk, h3, hread, hreg, hdata, hrwds, by simpa using hbyte⟩

/-! ## Reading back -/

section ReadBack

variable (m : List Host.Cell) (n : Nat) (die : Bool) (ha : HalfAddr) (v : HalfWord) (mask : Mask)

theorem devReadMem_high : (devReadMem m n die ha).extractLsb' 8 8
    = (memGet m (byteKey die ha false)).getD (Config.unwrittenByte n (byteKey die ha false)) :=
  BitVec.extractLsb'_append_eq_left

theorem devReadMem_low : (devReadMem m n die ha).extractLsb' 0 8
    = (memGet m (byteKey die ha true)).getD (Config.unwrittenByte n (byteKey die ha true)) :=
  BitVec.extractLsb'_append_eq_right

/-- The upper byte after a write that stores: the new one if enabled, else the old one, 0 where there was none. -/
theorem devReadMem_devWriteMem_high {mask : Mask} (h : mask ≠ 0b00#2) :
    (devReadMem (devWriteMem m die ha v mask) n die ha).extractLsb' 8 8
      = if mask.getLsbD 1 then v.extractLsb' 8 8 else (memGet m (byteKey die ha false)).getD 0#8 := by
  rw [devReadMem_high, memGet_devWriteMem]
  simp [h, byteKey_eq_iff]

/-- The lower byte after a write that stores. -/
theorem devReadMem_devWriteMem_low {mask : Mask} (h : mask ≠ 0b00#2) :
    (devReadMem (devWriteMem m die ha v mask) n die ha).extractLsb' 0 8
      = if mask.getLsbD 0 then v.extractLsb' 0 8 else (memGet m (byteKey die ha true)).getD 0#8 := by
  rw [devReadMem_low, memGet_devWriteMem]
  simp [h]

/-- A half-word write leaves every other half-word of either die alone. -/
theorem devReadMem_devWriteMem_other {die' : Bool} {ha' : HalfAddr} (h : (die', ha') ≠ (die, ha)) :
    devReadMem (devWriteMem m die ha v mask) n die' ha' = devReadMem m n die' ha' := by
  have hkey (low : Bool) : memGet (devWriteMem m die ha v mask) (byteKey die' ha' low) = memGet m (byteKey die' ha' low) := by
    by_contra hne
    obtain ⟨-, ⟨hk, -⟩ | ⟨hk, -⟩⟩ := devWriteMem_changes hne <;>
    · obtain ⟨hd, ha, -⟩ := byteKey_injective hk
      exact h (by rw [hd, ha])
  simp only [devReadMem, hkey]

/-- A half-word is its two bytes. -/
theorem halfWord_ext {x y : HalfWord} (hhigh : x.extractLsb' 8 8 = y.extractLsb' 8 8)
    (hlow : x.extractLsb' 0 8 = y.extractLsb' 0 8) : x = y := by
  calc x = x.extractLsb' 8 8 ++ x.extractLsb' 0 8 := (BitVec.extractLsb'_append_extractLsb' (w := 8) (len := 8)).symm
    _ = y.extractLsb' 8 8 ++ y.extractLsb' 0 8 := by rw [hhigh, hlow]
    _ = y := BitVec.extractLsb'_append_extractLsb' (w := 8) (len := 8)

end ReadBack

/-- Settles O49: each byte read back is the one the write put there; an all-masked word writes nothing. -/
theorem deviceWriteThenRead : Obligations.DeviceWriteThenRead := by
  intro m die ha v mask n
  have stores (j : Nat) (h : mask.getLsbD j = true) : mask ≠ 0b00#2 := by rintro rfl; simp at h
  refine ⟨halfWord_ext ?_ ?_, fun h1 => ?_, fun h0 => ?_, fun h1 h0 => ?_, fun h0 h1 => ?_, rfl,
    fun _ _ => devReadMem_devWriteMem_other m n die ha v mask, memWf_devWriteMem m die ha v mask⟩
  · exact devReadMem_devWriteMem_high m n die ha v (by decide)
  · exact devReadMem_devWriteMem_low m n die ha v (by decide)
  · rw [devReadMem_devWriteMem_high m n die ha v (stores 1 h1), if_pos h1]
  · rw [devReadMem_devWriteMem_low m n die ha v (stores 0 h0), if_pos h0]
  · rw [devReadMem_devWriteMem_low m n die ha v (stores 1 h1), if_neg (ne_true_of_eq_false h0)]
  · rw [devReadMem_devWriteMem_high m n die ha v (stores 0 h0), if_neg (ne_true_of_eq_false h1)]

end Sys2Proof.Proofs
end

section
/-! Proofs about what CORE puts on the bus, as the device behind the PHY will see it: unless a memory write is launched, the device
captures packets of reads and of register accesses only, and so stores nothing (20_memory.md R101, R104). -/

namespace Sys2Proof.Proofs

open Sys2Proof Sys2Proof.Machine Sys2Proof.Safety Sys2Proof.Laws

/-- The packet of a read or of a register access: the device stores no memory word under it (20_memory.md R104). -/
def storeless (ca : CaPacket) : Bool := caRead ca || caReg ca

theorem storeless_caOf (c : Cmd) : storeless (caOf c) = (!c.we || c.aspace) := by simp [storeless]

theorem storeless_regCmd (cfg : Cfg) (we : Bool) (die : BitVec 2) (type : BitVec 8) (nr : BitVec 3) :
    storeless (caOf (regCmd cfg we die type nr)) = true := by
  simp [storeless_caOf, regCmd]

/-! ## What the device has seen of a transaction -/

/-- How far the device has come, as the records that reach it tell. -/
inductive BusPhase where
  /-- no record has released the chip-select yet: what the device holds is unknown -/
  | stale
  /-- the chip-select was released and no slot has been clocked since -/
  | released
  /-- a packet has begun, and it is storeless -/
  | addressed

/-- The phase after a record. -/
def BusPhase.next (p : BusPhase) (b : BusOut) : BusPhase :=
  if b.cs then (if b.clkEn then .addressed else p) else .released

/-- A record stores nothing: where it is clocked, it continues a storeless packet or begins one. -/
def BusPhase.Allows (p : BusPhase) (b : BusOut) : Prop :=
  b.cs = true → b.clkEn = true → p = .addressed ∨ p = .released ∧ ∃ ca, storeless ca = true ∧ b = BusOut.drive (caHi ca)

/-- What a phase says of the device. -/
def BusPhase.Describes (p : BusPhase) (d : Device) : Prop :=
  match p with
  | .stale => True
  | .released => d.slot = 0
  | .addressed => 1 ≤ d.slot ∧ storeless d.ca = true

theorem next_of_released (p : BusPhase) {b : BusOut} (h : b.cs = false) : p.next b = .released := by
  simp [BusPhase.next, h]

theorem next_of_clocked (p : BusPhase) {b : BusOut} (hc : b.cs = true) (hk : b.clkEn = true) : p.next b = .addressed := by
  simp [BusPhase.next, hc, hk]

theorem next_of_stopped (p : BusPhase) {b : BusOut} (hc : b.cs = true) (hk : b.clkEn = false) : p.next b = p := by
  simp [BusPhase.next, hc, hk]

theorem next_addressed {b : BusOut} (hc : b.cs = true) : BusPhase.addressed.next b = .addressed := by
  simp [BusPhase.next, hc]

/-! ## One bus cycle of the device -/

/-- Slot 0 captures the part of the packet that holds the read bit and the space bit (30_encoding.md R116). -/
theorem storeless_captureCa_zero (old ca : CaPacket) : storeless (captureCa old 0 (caHi ca)) = storeless ca := by
  simp [storeless, caRead, caReg, captureCa, caHi]

/-- Slots 1 and 2 leave the read bit and the space bit alone. -/
theorem storeless_captureCa_of_pos (ca : CaPacket) {s : Nat} (h1 : 1 ≤ s) (h2 : s ≤ 2) (v : HalfWord) :
    storeless (captureCa ca s v) = storeless ca := by
  obtain rfl | rfl : s = 1 ∨ s = 2 := by omega
  all_goals simp [storeless, caRead, caReg, captureCa]

section Device

variable {cfg : Cfg} {n : Nat} {d : Device} {b : BusOut} {p : BusPhase}

/-- A phase speaks of the slot and the packet alone. -/
theorem BusPhase.Describes.congr {d' : Device} (hd : p.Describes d) (hslot : d'.slot = d.slot) (hca : d'.ca = d.ca) :
    p.Describes d' := by
  unfold BusPhase.Describes at hd ⊢
  rwa [hslot, hca]

/-- A clocked slot that the phase allows leaves the device with a storeless packet. -/
theorem storeless_takeSlot (hd : p.Describes d)
    (hb : p = .addressed ∨ p = .released ∧ ∃ ca, storeless ca = true ∧ b = BusOut.drive (caHi ca)) :
    storeless (d.takeSlot cfg n b).ca = true := by
  rcases hb with rfl | ⟨rfl, ca, hca, rfl⟩
  · obtain ⟨h1, hold⟩ := hd
    rcases takeSlot_cases cfg n d b with ⟨h2, e⟩ | ⟨-, -, -, e⟩ | ⟨-, -, -, -, e⟩ | ⟨-, e⟩ <;> rw [e]
    · exact (storeless_captureCa_of_pos d.ca h1 h2 _).trans hold
    · rwa [(writeReg_mem_ca _ _ _).2]
    · exact hold
    · exact hold
  · have hslot : d.slot = 0 := hd
    have e : d.takeSlot cfg n (BusOut.drive (caHi ca)) = { d with ca := captureCa d.ca 0 (caHi ca) } := by
      simp [Device.takeSlot, hslot, BusOut.sampledDq, BusOut.drive]
    rw [e]
    exact (storeless_captureCa_zero d.ca ca).trans hca

/-- The phase is kept in step with the device. -/
theorem describes_busCycle (hd : p.Describes d) (hb : p.Allows b) : (p.next b).Describes (d.busCycle cfg n b).1 := by
  cases hc : b.cs with
  | false =>
    rw [next_of_released p hc, busCycle_released cfg n d b hc]
    rfl
  | true =>
    cases hk : b.clkEn with
    | false =>
      rw [next_of_stopped p hc hk, busCycle_stopped cfg n d b hc hk]
      exact hd
    | true =>
      have hdraw : p.Describes (d.draw n b) := hd.congr (draw_slot n d b) (draw_ca n d b)
      rw [next_of_clocked p hc hk, busCycle_clocked cfg n d b hc hk]
      exact ⟨Nat.le_add_left 1 d.slot, storeless_takeSlot hdraw (hb hc hk)⟩

/-- A record that the phase allows changes no byte: a cycle that stores is a slot past the packet of a memory write. -/
theorem memGet_busCycle (hd : p.Describes d) (hb : p.Allows b) (k : Nat) :
    memGet (d.busCycle cfg n b).1.mem k = memGet d.mem k := by
  by_contra hne
  obtain ⟨hc, hk, h3, hread, hreg, -⟩ := busCycleMemoryFrame cfg n d b k hne
  rcases hb hc hk with rfl | ⟨rfl, -⟩
  · obtain ⟨-, hca⟩ := hd
    simp [storeless, hread, hreg] at hca
  · have hslot : d.slot = 0 := hd
    omega

end Device

/-! ## The records of the Controller -/

/-- The Controller has no transaction on the bus. -/
def Resting (c : Ctl) : Prop := c.state = .idle ∨ c.state = .endRead

/-- The Controller, with the phase its records have brought the device to, is not storing. -/
def StoresNothing (c : Ctl) (p : BusPhase) : Prop :=
  Resting c ∨ p = .addressed ∨ p = .released ∧ c.state = .caWord0 ∧ storeless c.ca = true

section Controller

variable {cfg : Cfg} {c c' : Ctl} {mp : PortIn} {phy : PhyIn} {p : BusPhase}

theorem bus_of_resting (h : Resting c) : c.bus cfg mp = BusOut.idle := by
  rcases h with hs | hs <;> simp [Ctl.bus, hs]

theorem bus_cs_of_not_resting (h : ¬ Resting c) : (c.bus cfg mp).cs = true := by
  cases hs : c.state with
  | idle => exact absurd (.inl hs) h
  | endRead => exact absurd (.inr hs) h
  | caWord0 | caWord1 | caWord2 | writeDelay | writeReg | endWrite | readDelay | read => simp only [Ctl.bus, hs]; rfl
  | selectOp | write => simp only [Ctl.bus, hs]; (repeat' split) <;> rfl

/-- From rest the Controller stays at rest or launches a packet: its own, which is storeless, or the one on its port. -/
theorem CtlMove.of_resting (hm : CtlMove cfg c mp phy c') (hr : Resting c)
    (hcmd : c.cfgPending = false → mp.cmdValid = true → storeless (caOf mp.cmd) = true) : StoresNothing c' .released := by
  cases hm with
  | count | wait => exact .inl hr
  | autocfg => exact .inr (.inr ⟨rfl, rfl, storeless_regCmd _ _ _ _ _⟩)
  | command _ _ _ done valid => exact .inr (.inr ⟨rfl, rfl, hcmd done valid⟩)
  | finish => exact .inl (.inl rfl)
  | follow st load _ running succ =>
    have he : c.state = .endRead := hr.resolve_left running
    simp only [successors, he, List.mem_singleton] at succ
    exact .inl (.inl succ)

/-- The record of a Controller that is not storing is allowed, and the tick keeps it so unless the port commands a memory write. -/
theorem storesNothing_tick (h : StoresNothing c p)
    (hcmd : c.cfgPending = false → mp.cmdValid = true → storeless (caOf mp.cmd) = true) :
    p.Allows (c.bus cfg mp) ∧ StoresNothing (c.tick cfg mp phy) (p.next (c.bus cfg mp)) := by
  by_cases hr : Resting c
  · rw [bus_of_resting hr]
    exact ⟨nofun, (tick_move cfg c mp phy).of_resting hr hcmd⟩
  · have hcs : (c.bus cfg mp).cs = true := bus_cs_of_not_resting hr
    rcases h.resolve_left hr with rfl | ⟨rfl, hs, hca⟩
    · exact ⟨fun _ _ => .inl rfl, .inr (.inl (next_addressed hcs))⟩
    · have hbus : c.bus cfg mp = BusOut.drive (caHi c.ca) := by simp [Ctl.bus, hs]
      rw [hbus]
      exact ⟨fun _ _ => .inr ⟨rfl, c.ca, hca, rfl⟩, .inr (.inl rfl)⟩

end Controller

/-! ## The transmit queue -/

/-- The records on their way are allowed one after the other, from the phase of the device on, and leave a phase in which the
Controller is not storing. -/
def QueueAllowed (c : Ctl) : BusPhase → List BusOut → Prop
  | p, [] => StoresNothing c p
  | p, b :: bs => p.Allows b ∧ QueueAllowed c (p.next b) bs

/-- A record enters the queue. -/
theorem queueAllowed_append {c c' : Ctl} {out : BusOut}
    (hout : ∀ p, StoresNothing c p → p.Allows out ∧ StoresNothing c' (p.next out)) {p : BusPhase} {q : List BusOut}
    (h : QueueAllowed c p q) : QueueAllowed c' p (q ++ [out]) := by
  induction q generalizing p with
  | nil => exact hout p h
  | cons b bs ih =>
    obtain ⟨hb, hbs⟩ := h
    exact ⟨hb, ih hbs⟩

/-- With the Controller at rest, a queue without a clocked record is allowed from any phase. -/
theorem queueAllowed_of_quietQueue {c : Ctl} (hr : Resting c) {q : List BusOut}
    (hq : (q.all fun b => !(b.cs && b.clkEn)) = true) (p : BusPhase) : QueueAllowed c p q := by
  induction q generalizing p with
  | nil => exact .inl hr
  | cons b bs ih =>
    simp only [List.all_cons, Bool.and_eq_true] at hq
    obtain ⟨hb, hbs⟩ := hq
    exact ⟨fun hc hk => by simp [hc, hk] at hb, ih hbs _⟩

/-- The record on the bus is the head of the queue with CORE's record behind it (20_memory.md R101). -/
theorem append_eq_onBus_cons (d : Device) (out : BusOut) : d.txq ++ [out] = d.onBus out :: (d.txq ++ [out]).tail := by
  unfold Device.onBus
  cases d.txq <;> rfl

/-- The device and the queue before it, with the Controller, are not storing. -/
def PathStoresNothing (c : Ctl) (d : Device) : Prop := ∃ p : BusPhase, p.Describes d ∧ QueueAllowed c p d.txq

/-- A tick of the device, fed an allowed record, keeps the path and every byte. -/
theorem pathStoresNothing_tick {c c' : Ctl} {out : BusOut} {d : Device} (cfg : Cfg) (n : Nat)
    (hout : ∀ p, StoresNothing c p → p.Allows out ∧ StoresNothing c' (p.next out)) (h : PathStoresNothing c d) :
    PathStoresNothing c' (d.tick cfg n out) ∧ ∀ k, memGet (d.tick cfg n out).mem k = memGet d.mem k := by
  obtain ⟨p, hd, hq⟩ := h
  have hq' := queueAllowed_append hout hq
  rw [append_eq_onBus_cons] at hq'
  obtain ⟨hb, hrest⟩ := hq'
  exact ⟨⟨p.next (d.onBus out), (describes_busCycle (cfg := cfg) (n := n) hd hb).congr rfl rfl, hrest⟩, memGet_busCycle hd hb⟩

end Sys2Proof.Proofs
end

section
/-! Proofs about instructions and the device's memory: only memory writes store (20_memory.md R104; 41_controller.md R236 to R238,
R240; 43_registerspace.md R316 to R320). -/

namespace Sys2Proof.Proofs

open Sys2Proof Sys2Proof.Machine Sys2Proof.Safety Sys2Proof.Laws

/-! ## What can be launched -/

/-- RegisterSpace commands register accesses alone; a data command reaches the Controller only with the data port connected. -/
theorem mpIn_storeless {cfg : Cfg} {s : CoreState} {i : Inputs}
    (h : s.sel = false → i.dp.cmdValid = true → storeless (caOf i.dp.cmd) = true) (hv : (s.mpIn cfg i).cmdValid = true) :
    storeless (caOf (s.mpIn cfg i).cmd) = true := by
  unfold CoreState.mpIn at hv ⊢
  cases hs : s.sel with
  | true => exact storeless_regCmd _ _ _ _ _
  | false =>
    simp only [hs, xbForward_data, Bool.and_eq_true] at hv ⊢
    exact h hs hv.1

/-- No memory write is presented. -/
def requestStoreless (r : Option Request) : Prop := ∀ w, r = some (.cmd w) → storeless (caOf (Cmd.ofWord w)) = true

theorem requestStoreless_reqAfter {s : State} (h : requestStoreless s.req) : requestStoreless s.reqAfter := by
  unfold State.reqAfter
  split
  next hr =>
    split
    · exact nofun
    · rwa [← hr]
  all_goals exact nofun

/-- With no data command scheduled, the one offered is the request. -/
theorem inputs_cmd {s : State} (hs : ∀ j ∈ s.sched, j.dp.cmdValid = false) (hv : s.inputs.dp.cmdValid = true) :
    ∃ w, s.req = some (.cmd w) ∧ s.inputs.dp.cmd = Cmd.ofWord w := by
  have hquiet : s.scheduled.dp.cmdValid = false := by
    unfold State.scheduled
    cases hsched : s.sched with
    | nil => rfl
    | cons j js => exact hs j (by simp [hsched])
  unfold State.inputs at hv ⊢
  cases hr : s.req with
  | none => simp [hr, hquiet] at hv
  | some r =>
    cases r with
    | cmd w => exact ⟨w, rfl, rfl⟩
    | csrWrite w => simp [hr, Inputs.present, hquiet] at hv
    | csrRead => simp [hr, hquiet] at hv

/-! ## Cycles -/

/-- What keeps a presented memory write from being launched in the coming cycle: the Controller's own writes are pending
(41_controller.md R200), the Crossbar is locked out (42_crossbar.md R272), or none is presented. -/
def NoMemWrNow (s : State) : Prop :=
  s.core.ctl.cfgPending = true ∨ s.core.rs.setupDone = false ∨ requestStoreless s.req

/-- In a cycle that launches no memory write, the record CORE drives is allowed and CORE goes on not storing. -/
theorem storesNothing_clock {s : State} (hs : ∀ j ∈ s.sched, j.dp.cmdValid = false) (hno : NoMemWrNow s) (p : BusPhase)
    (h : StoresNothing s.core.ctl p) : p.Allows s.outputs.bus ∧ StoresNothing s.clock.core.ctl (p.next s.outputs.bus) := by
  have hcmd : s.core.ctl.cfgPending = false → (s.core.mpIn s.cfg s.inputs).cmdValid = true →
      storeless (caOf (s.core.mpIn s.cfg s.inputs).cmd) = true := by
    refine fun hpending => mpIn_storeless fun hsel hv => ?_
    obtain ⟨w, hr, hw⟩ := inputs_cmd hs hv
    rcases hno with hp | hsetup | hreq
    · simp [hp] at hpending
    · simp [CoreState.sel, CoreState.lockout, hsetup] at hsel
    · rw [hw]
      exact hreq w hr
  obtain ⟨hallows, hnext⟩ := storesNothing_tick (cfg := s.cfg) (phy := s.inputs.phy) h hcmd
  refine ⟨hallows, ?_⟩
  rw [clock_core]
  cases hreset : s.inputs.reset with
  | true =>
    rw [tick_of_reset _ _ _ hreset]
    exact .inl (.inl rfl)
  | false =>
    rw [tick_of_not_reset _ _ _ hreset]
    exact hnext

/-- No data command is scheduled, the device's memory holds the bytes of `m`, and nothing on its way will store. -/
structure MemoryKept (m : List Host.Cell) (s : State) : Prop where
  noCommand : ∀ j ∈ s.sched, j.dp.cmdValid = false
  path : ∀ d, s.device = some d → PathStoresNothing s.core.ctl d
  bytes : ∀ d, s.device = some d → ∀ k, memGet d.mem k = memGet m k

theorem memoryKept_clock {m : List Host.Cell} {s : State} (h : MemoryKept m s) (hno : NoMemWrNow s) : MemoryKept m s.clock := by
  have device (d' : Device) (hd' : s.clock.device = some d') :
      PathStoresNothing s.clock.core.ctl d' ∧ ∀ k, memGet d'.mem k = memGet m k := by
    obtain ⟨d, hd, rfl⟩ := Option.map_eq_some_iff.1 hd'
    obtain ⟨hpath, hbytes⟩ := pathStoresNothing_tick s.cfg s.cycle (storesNothing_clock h.noCommand hno) (h.path d hd)
    exact ⟨hpath, fun k => (hbytes k).trans (h.bytes d hd k)⟩
  exact
    { noCommand := fun j hj => h.noCommand j (List.mem_of_mem_tail hj)
      path := fun d' hd' => (device d' hd').1
      bytes := fun d' hd' => (device d' hd').2 }

/-- A presented request is not looked at. -/
theorem MemoryKept.withReq {m : List Host.Cell} {s : State} (h : MemoryKept m s) (r : Option Request) :
    MemoryKept m { s with req := r } := ⟨h.noCommand, h.path, h.bytes⟩

/-- With no memory write presented, any number of cycles keeps the memory. -/
theorem memoryKept_cycles {m : List Host.Cell} {s : State} (h : MemoryKept m s) (hreq : requestStoreless s.req) (n : Nat) :
    MemoryKept m (cycles n s) :=
  (cycles_induction (P := fun s => MemoryKept m s ∧ requestStoreless s.req)
    (fun _ ⟨hs, hr⟩ => ⟨memoryKept_clock hs (.inr (.inr hr)), requestStoreless_reqAfter hr⟩) n ⟨h, hreq⟩).1

/-- What every cycle of a run keeps, the run keeps; each of its cycles starts with the condition met. -/
theorem runWhile_induction_of_busy {P : State → Prop} {busy : State → Bool} (hP : ∀ s, busy s = true → P s → P s.clock) (n : Nat)
    {s : State} (h : P s) : P (runWhile busy n s) := by
  induction n generalizing s with
  | zero => exact h
  | succ n ih =>
    cases hb : busy s with
    | true => rw [runWhile_step hb]; exact ih (hP s hb h)
    | false => rwa [runWhile_stop hb]

/-! ## Instructions -/

/-- The request of an instruction is no memory write, unless it is `MEM_WR`. -/
theorem requestStoreless_of_request {i : Instr} (hi : ∀ b a, i ≠ .memWr b a) : requestStoreless i.request? := by
  intro w hw
  cases i with
  | memWr b a => exact absurd rfl (hi b a)
  | memRd | regRd | regWr =>
    cases hw
    simp [storeless_caOf]
  | ctlAutocfg | csrLatch | csrGoWr | csrGoRd | csrRead | rsSetup => cases hw

/-- A client's instruction other than `MEM_WR` keeps the memory. -/
theorem memoryKept_exec_client {m : List Host.Cell} {s t : State} {i : Instr} {r : Request} (h : MemoryKept m s)
    (hi : ∀ b a, i ≠ .memWr b a) (hr : i.request? = some r) (he : exec i s = .next t) : MemoryKept m t := by
  obtain ⟨n, hn⟩ := exec_eq_cycles i s
  rw [hn] at he
  cases he
  have hp : presenting i s = { s with req := i.request? } := by simp [presenting, hr]
  rw [hp]
  exact memoryKept_cycles (h.withReq _) (requestStoreless_of_request hi) n

/-- Every instruction but `MEM_WR` keeps the memory: an autonomous sequence because a presented command is held back in each of its
cycles, a client's instruction because its own request is no memory write. -/
theorem memoryKept_exec {m : List Host.Cell} {s t : State} {i : Instr} (h : MemoryKept m s) (hi : ∀ b a, i ≠ .memWr b a)
    (he : exec i s = .next t) : MemoryKept m t := by
  cases i with
  | ctlAutocfg =>
    cases he
    exact runWhile_induction_of_busy (fun s hb hs => memoryKept_clock hs (.inl hb)) _ h
  | rsSetup =>
    cases he
    exact runWhile_induction_of_busy (fun s hb hs => memoryKept_clock hs (.inr (.inl (by simpa using hb)))) _ h
  | memRd | memWr | regRd | regWr | csrLatch | csrGoWr | csrGoRd | csrRead => exact memoryKept_exec_client h hi rfl he

/-- Settles O54: the record of the idle Controller goes before everything the instruction drives, so from a queue without a clocked
record on, the device sees storeless packets alone. -/
theorem onlyMemoryWritesStore : Obligations.OnlyMemoryWritesStore := by
  intro s t d dev i k hi hidle hd hq hsched he hdev
  have hstart : MemoryKept d.mem s :=
    { noCommand := hsched
      path := fun d' hd' => by
        cases hd.symm.trans hd'
        exact ⟨.stale, trivial, queueAllowed_of_quietQueue (.inl hidle) hq _⟩
      bytes := fun d' hd' k => by
        cases hd.symm.trans hd'
        rfl }
  exact (memoryKept_exec hstart hi he).bytes dev hdev k

end Sys2Proof.Proofs
end

section
/-! Proofs about the encodings of the ports (30_encoding.md R110, R111, R125 to R127, R132): the bytes of a request give it back, and a
decoded word encodes to itself. -/

namespace Sys2Proof.Proofs

open Sys2Proof Sys2Proof.Laws

/-! ## Requests and bytes -/

/-- The bytes of a request are its own: five bytes hold 35 bits, four bytes hold 32. -/
theorem requestOfBytes_toBytes (r : Request) : requestOfBytes r.toBytes = .ok r := by
  cases r with
  | cmd w =>
    have hw : w.toNat < 2 ^ 35 := w.isLt
    have hval : bytesToNat (natToBytes 5 w.toNat) = w.toNat := by
      rw [bytesToNat_natToBytes, Nat.mod_eq_of_lt (by omega)]
    simpa [Request.toBytes, requestOfBytes, hval] using hw
  | csrWrite w =>
    have hval : bytesToNat (natToBytes 4 w.toNat) = w.toNat := by
      rw [bytesToNat_natToBytes, Nat.mod_eq_of_lt w.isLt]
    simp [Request.toBytes, requestOfBytes, hval]
  | csrRead => rfl

theorem decode_toBytes (r : Request) : decode r.toBytes = .ok r.decode := by
  rw [decode, requestOfBytes_toBytes]
  rfl

theorem encode_of_request {i : Instr} {r : Request} (h : i.request? = some r) : encode i = r.toBytes := by
  simp [encode, h]

/-! ## From an instruction to its bytes and back -/

/-- The instructions a client can select are the ones with a request. -/
theorem exists_request_of_wellFormed {i : Instr} (h : i.wellFormed = true) : ∃ r, i.request? = some r := by
  cases i with
  | ctlAutocfg | rsSetup => cases h
  | memRd | memWr | regRd | regWr | csrLatch | csrGoWr | csrGoRd | csrRead => exact ⟨_, rfl⟩

/-- What a client presents for an instruction decodes to that instruction. -/
theorem decode_of_request (i : Instr) : RequestDecodes.Statement i := by
  cases i with
  | memRd burst addr => exact RequestDecodes.memRd burst addr
  | memWr burst addr => exact RequestDecodes.memWr burst addr
  | regRd burst addr => exact RequestDecodes.regRd burst addr
  | regWr burst addr => exact RequestDecodes.regWr burst addr
  | ctlAutocfg => exact RequestDecodes.ctlAutocfg
  | csrLatch we die type nr value => exact RequestDecodes.csrLatch we die type nr value
  | csrGoWr die type nr value => exact RequestDecodes.csrGoWr die type nr value
  | csrGoRd die type nr value => exact RequestDecodes.csrGoRd die type nr value
  | csrRead => exact RequestDecodes.csrRead
  | rsSetup => exact RequestDecodes.rsSetup

/-- Settles O1: a selectable instruction has a request, the request is read back from its bytes, and it decodes to the instruction. -/
theorem decodeOfEncode : Obligations.DecodeOfEncode := by
  intro i hi
  obtain ⟨r, hr⟩ := exists_request_of_wellFormed hi
  rw [encode_of_request hr, decode_toBytes, decode_of_request i r hr]

/-! ## From a word to its instruction and back -/

/-- The instruction of a `cmd` item is presented by that item: the flags its constructor fixes are the item's own. -/
theorem request_decodeCmd (c : Cmd) : (decodeCmd c).request? = some (.cmd c.toWord) := by
  obtain ⟨we, aspace, burst, addr⟩ := c
  cases we <;> cases aspace <;> rfl

/-- The instruction of a CSR word is presented by the word of the same fields, its `busy` bit clear. -/
theorem request_decodeCsrWrite (w : CsrWord) :
    (decodeCsrWrite w).request? = some (.csrWrite (csrWordOf false (w.getLsbD 30) (w.getLsbD 29) (w.extractLsb' 27 2)
      (w.extractLsb' 19 8) (w.extractLsb' 16 3) (w.extractLsb' 0 16))) := by
  unfold decodeCsrWrite
  cases hs : w.getLsbD 30 with
  | false => rfl
  | true => cases w.getLsbD 29 <;> rfl

/-- Masking bit 31 of a CSR word away clears its `busy` field and leaves the others. -/
theorem csrWordOf_eq_and_mask (w : CsrWord) :
    csrWordOf false (w.getLsbD 30) (w.getLsbD 29) (w.extractLsb' 27 2) (w.extractLsb' 19 8) (w.extractLsb' 16 3)
      (w.extractLsb' 0 16) = w &&& 0x7FFFFFFF#32 := by
  have hdie : w.extractLsb' 27 2 &&& 3#2 = w.extractLsb' 27 2 := BitVec.and_allOnes
  have htype : w.extractLsb' 19 8 &&& 255#8 = w.extractLsb' 19 8 := BitVec.and_allOnes
  have hnr : w.extractLsb' 16 3 &&& 7#3 = w.extractLsb' 16 3 := BitVec.and_allOnes
  have hvalue : w.extractLsb' 0 16 &&& 65535#16 = w.extractLsb' 0 16 := BitVec.and_allOnes
  rw [← csrWord_eta (w &&& 0x7FFFFFFF#32)]
  simp [BitVec.extractLsb'_and, hdie, htype, hnr, hvalue]

/-- Settles O2: the request of the decoded word is the word itself, for a CSR word with the `busy` field clear. -/
theorem encodeOfDecode : Obligations.EncodeOfDecode := by
  refine ⟨fun w => ?_, fun w => ?_⟩
  · rw [Request.decode, encode_of_request (request_decodeCmd _), toWord_ofWord, Request.toBytes]
  · rw [Request.decode, encode_of_request (request_decodeCsrWrite w), csrWordOf_eq_and_mask, Request.toBytes]

/-! ## Table words -/

theorem decodeTableWord_cmd (w : CmdWord) : decodeTableWord 35 w.toNat = some (Request.cmd w).decode := by
  have h := decode_toBytes (.cmd w)
  simp only [Request.toBytes] at h
  simp [decodeTableWord, h, Except.toOption]

theorem decodeTableWord_csrWrite (w : CsrWord) : decodeTableWord 32 w.toNat = some (Request.csrWrite w).decode := by
  have h := decode_toBytes (.csrWrite w)
  simp only [Request.toBytes] at h
  simp [decodeTableWord, h, Except.toOption]

/-- Settles O3: a table word decodes as the port item of its width, whose fields are the operands of the table's row. -/
theorem workedWordsDecode : Obligations.WorkedWordsDecode :=
  ⟨decodeTableWord_cmd 0x500001000#35, decodeTableWord_cmd 0x100001000#35, decodeTableWord_cmd 0x400400005#35,
    decodeTableWord_cmd 0x700000800#35, decodeTableWord_cmd 0x300400800#35, decodeTableWord_csrWrite 0x20088FE7#32,
    decodeTableWord_csrWrite 0x6009FFFE#32, decodeTableWord_csrWrite 0x48080000#32, rfl⟩

end Sys2Proof.Proofs
end

section
/-! Proofs about the command-address packet and the addresses that CORE itself puts together (30_encoding.md R113 to R118). -/

namespace Sys2Proof.Proofs

open Sys2Proof Sys2Proof.Machine Sys2Proof.Laws

/-! ## The address field of a packet -/

/-- The address field lies 13 bits up in the packet, above its three low bits. -/
theorem caAddr_getLsbD (p : CaPacket) {b : Nat} (hb : b ≤ 31) :
    (caAddr p).getLsbD b = if b < 3 then p.getLsbD b else p.getLsbD (b + 13) := by
  simp only [caAddr, BitVec.getLsbD_append, BitVec.getLsbD_extractLsb']
  by_cases h : b < 3
  · simp [h]
  · have hlt : b - 3 < 29 := by omega
    have heq : 16 + (b - 3) = b + 13 := by omega
    simp [h, hlt, heq]

theorem caAddr_high (p : CaPacket) : (caAddr p).extractLsb' 3 29 = p.extractLsb' 16 29 := by
  apply BitVec.eq_of_getLsbD_eq
  intro i hi
  have heq : 3 + i + 13 = 16 + i := by omega
  simp [hi, caAddr_getLsbD p (show 3 + i ≤ 31 by omega), heq]

theorem caAddr_low (p : CaPacket) : (caAddr p).extractLsb' 0 3 = p.extractLsb' 0 3 := by
  apply BitVec.eq_of_getLsbD_eq
  intro i hi
  simp [hi, caAddr_getLsbD p (show i ≤ 31 by omega)]

/-- Settles O4: each field of the packet is what the packet's accessor of that field reads back. -/
theorem packetLayout : Obligations.PacketLayout := by
  intro c
  refine ⟨caRead_caOf c, caReg_caOf c, caLinear_caOf c, ?_, caOf_reserved c, ?_, fun b hlow hhigh => ?_⟩
  · rw [← caAddr_high, caAddr_caOf]
  · rw [← caAddr_low, caAddr_caOf]
  · have h := caAddr_getLsbD (caOf c) hhigh
    rwa [caAddr_caOf, if_neg (by omega), eq_comm] at h

/-! ## Packets and commands -/

/-- The command a packet carries. -/
def commandOf (p : CaPacket) : Cmd :=
  { we := !caRead p, aspace := caReg p, burst := caLinear p, addr := caAddr p }

theorem commandOf_caOf (c : Cmd) : commandOf (caOf c) = c := by simp [commandOf]

/-- Only the reserved bits are lost when a packet is read as a command. -/
theorem caOf_commandOf {p : CaPacket} (h : p.extractLsb' 3 13 = 0#13) : caOf (commandOf p) = p := by
  apply BitVec.eq_of_getLsbD_eq
  intro i hi
  simp only [caOf, commandOf, caAddr_high, caAddr_low, ← h, BitVec.getLsbD_append, BitVec.getLsbD_extractLsb']
  by_cases h3 : i < 3
  · simp [h3]
  by_cases h16 : i < 16
  · have hlt : i - 3 < 13 := by omega
    have heq : 3 + (i - 3) = i := by omega
    simp [h3, hlt, heq]
  by_cases h45 : i < 45
  · have hge : ¬ i - 3 < 13 := by omega
    have hlt : i - 3 - 13 < 29 := by omega
    have heq : 16 + (i - 3 - 13) = i := by omega
    simp [h3, hge, hlt, heq]
  obtain rfl | rfl | rfl : i = 45 ∨ i = 46 ∨ i = 47 := by omega
  all_goals simp [caRead, caReg, caLinear]

/-- Settles O5: reading the command off a packet undoes `caOf`, and on packets with zero reserved bits `caOf` undoes it. -/
theorem packetsAreCommands : Obligations.PacketsAreCommands := by
  refine ⟨fun c d h => ?_, fun p hp => ⟨commandOf p, caOf_commandOf hp⟩⟩
  rw [← commandOf_caOf c, h, commandOf_caOf]

/-! ## The register-space address -/

/-- Whether a register access selects the upper die: with two dies, by bit 0 of the die number. -/
def selectsUpperDie (cfg : Cfg) (die : BitVec 2) : Bool := decide (cfg.nbanks = 2) && die.getLsbD 0

theorem selectsUpperDie_iff (cfg : Cfg) (die : BitVec 2) :
    selectsUpperDie cfg die = true ↔ cfg.nbanks = 2 ∧ die.getLsbD 0 = true := by
  simp only [selectsUpperDie, Bool.and_eq_true, decide_eq_true_eq]

/-- The die number enters the address through `selectsUpperDie` alone. -/
theorem regAddr_eq (cfg : Cfg) (die : BitVec 2) (type : BitVec 8) (nr : BitVec 3) :
    regAddr cfg die type nr =
      ((BitVec.ofBool (selectsUpperDie cfg die)).zeroExtend 32 <<< cfg.dieBit) ||| (type.zeroExtend 32 <<< 11)
        ||| nr.zeroExtend 32 := by
  by_cases h : cfg.nbanks = 2 <;> simp [regAddr, selectsUpperDie, h]

/-- Fields of 3 and 8 bits at 0 and 11, and a bit at 19 or above, do not overlap. -/
theorem or_fields_eq_sum {bit type nr k : Nat} (htype : type < 2 ^ 8) (hnr : nr < 2 ^ 3) (hk : 19 ≤ k) :
    bit <<< k ||| type <<< 11 ||| nr = bit * 2 ^ k + type * 2 ^ 11 + nr := by
  have hpow : 2 ^ 19 ≤ 2 ^ k := Nat.pow_le_pow_right (by decide) hk
  have hreg : type <<< 11 + nr < 2 ^ k := by rw [Nat.shiftLeft_eq]; omega
  calc bit <<< k ||| type <<< 11 ||| nr
      = bit <<< k ||| (type <<< 11 + nr) := by rw [Nat.or_assoc, Nat.shiftLeft_add_eq_or_of_lt (by omega)]
    _ = bit <<< k + (type <<< 11 + nr) := (Nat.shiftLeft_add_eq_or_of_lt hreg _).symm
    _ = bit * 2 ^ k + type * 2 ^ 11 + nr := by rw [Nat.shiftLeft_eq, Nat.shiftLeft_eq, Nat.add_assoc]

/-- The address is the sum of its parts when the die bit lies above the type field. -/
theorem regAddr_toNat {cfg : Cfg} (hlow : 19 ≤ cfg.dieBit) (hhigh : cfg.dieBit ≤ 31) (die : BitVec 2) (type : BitVec 8)
    (nr : BitVec 3) :
    (regAddr cfg die type nr).toNat =
      (selectsUpperDie cfg die).toNat * 2 ^ cfg.dieBit + type.toNat * 2 ^ 11 + nr.toNat := by
  have htype : type.toNat < 2 ^ 8 := type.isLt
  have hnr : nr.toNat < 2 ^ 3 := nr.isLt
  have hbit : (selectsUpperDie cfg die).toNat * 2 ^ cfg.dieBit ≤ 1 * 2 ^ 31 :=
    Nat.mul_le_mul (Bool.toNat_le _) (Nat.pow_le_pow_right (by decide) hhigh)
  have hdie := Bool.toNat_le (selectsUpperDie cfg die)
  rw [← or_fields_eq_sum htype hnr hlow, regAddr_eq]
  simp only [BitVec.toNat_or, BitVec.toNat_shiftLeft, BitVec.truncate_eq_setWidth, BitVec.toNat_setWidth, BitVec.toNat_ofBool]
  rw [Nat.mod_eq_of_lt (show (selectsUpperDie cfg die).toNat < 2 ^ 32 by omega),
    Nat.mod_eq_of_lt (show type.toNat < 2 ^ 32 by omega), Nat.mod_eq_of_lt (show nr.toNat < 2 ^ 32 by omega),
    Nat.mod_eq_of_lt (by rw [Nat.shiftLeft_eq]; omega), Nat.mod_eq_of_lt (by rw [Nat.shiftLeft_eq]; omega)]

/-- Settles O6: the address is a sum of parts that do not overlap, and depends on the die number through `selectsUpperDie` alone. -/
theorem registerSpaceAddress : Obligations.RegisterSpaceAddress := by
  intro cfg die type nr
  refine ⟨fun hlow hhigh => ?_, ?_, fun hbanks => ?_⟩
  · rw [regAddr_toNat hlow hhigh]
    simp only [← selectsUpperDie_iff]
    cases selectsUpperDie cfg die <;> simp
  · have h : selectsUpperDie cfg (die &&& 1#2) = selectsUpperDie cfg die := by simp [selectsUpperDie]
    rw [regAddr_eq, regAddr_eq, h]
  · have h (d : BitVec 2) : selectsUpperDie cfg d = false := by simp [selectsUpperDie, hbanks]
    rw [regAddr_eq, regAddr_eq, h, h]

/-! ## The Controller's own packet -/

/-- Bit `b + 13` of a packet, set beside what stands there. -/
theorem getLsbD_or_die_bit (p : CaPacket) {b : Nat} (hhigh : b ≤ 31) (i : Nat) :
    (p ||| 1#48 <<< (b + 13)).getLsbD i = (p.getLsbD i || decide (b + 13 = i)) := by
  have hlt : b + 13 < 48 := by omega
  rw [BitVec.getLsbD_or, ← BitVec.twoPow_eq, BitVec.getLsbD_twoPow, decide_eq_true hlt, Bool.true_and]

theorem reserved_or_die_bit {p : CaPacket} (hp : p.extractLsb' 3 13 = 0#13) {b : Nat} (hlow : 3 ≤ b) (hhigh : b ≤ 31) :
    (p ||| 1#48 <<< (b + 13)).extractLsb' 3 13 = 0#13 := by
  rw [← hp]
  apply BitVec.eq_of_getLsbD_eq
  intro i hi
  have hne : b + 13 ≠ 3 + i := by omega
  simp only [BitVec.getLsbD_extractLsb', getLsbD_or_die_bit p hhigh, decide_eq_false hne, Bool.or_false]

theorem caAddr_or_die_bit (p : CaPacket) {b : Nat} (hlow : 3 ≤ b) (hhigh : b ≤ 31) :
    caAddr (p ||| 1#48 <<< (b + 13)) = 1#32 <<< b ||| caAddr p := by
  apply BitVec.eq_of_getLsbD_eq
  intro i hi
  have hi' : i ≤ 31 := by omega
  have hlt : b < 32 := by omega
  have hright : (1#32 <<< b ||| caAddr p).getLsbD i = (decide (b = i) || (caAddr p).getLsbD i) := by
    rw [BitVec.getLsbD_or, ← BitVec.twoPow_eq, BitVec.getLsbD_twoPow, decide_eq_true hlt, Bool.true_and]
  rw [hright, caAddr_getLsbD _ hi', caAddr_getLsbD _ hi', getLsbD_or_die_bit p hhigh, getLsbD_or_die_bit p hhigh]
  by_cases h3 : i < 3
  · have hne : b ≠ i := by omega
    have hne' : b + 13 ≠ i := by omega
    simp [h3, hne, hne']
  · simp [h3, Bool.or_comm]

/-- The packet with the bit set carries the command with address bit `b` set: the flags lie above it. -/
theorem commandOf_or_die_bit (p : CaPacket) {b : Nat} (hlow : 3 ≤ b) (hhigh : b ≤ 31) :
    commandOf (p ||| 1#48 <<< (b + 13)) = { commandOf p with addr := 1#32 <<< b ||| caAddr p } := by
  have hflag {k : Nat} (hk : 45 ≤ k) : (p ||| 1#48 <<< (b + 13)).getLsbD k = p.getLsbD k := by
    have hne : b + 13 ≠ k := by omega
    rw [getLsbD_or_die_bit p hhigh, decide_eq_false hne, Bool.or_false]
  simp only [commandOf, caAddr_or_die_bit p hlow hhigh, caRead, caReg, caLinear, hflag (show 45 ≤ 47 by decide),
    hflag (show 45 ≤ 46 by decide), hflag (show 45 ≤ 45 by decide)]

/-- Setting address bit `b`, from 3 to 31, sets bit `b + 13` of the packet. -/
theorem caOf_or_addr_bit (c : Cmd) {b : Nat} (hlow : 3 ≤ b) (hhigh : b ≤ 31) :
    caOf { c with addr := 1#32 <<< b ||| c.addr } = caOf c ||| 1#48 <<< (b + 13) := by
  have hcommand := commandOf_or_die_bit (caOf c) hlow hhigh
  rw [commandOf_caOf, caAddr_caOf] at hcommand
  rw [← hcommand, caOf_commandOf (reserved_or_die_bit (caOf_reserved c) hlow hhigh)]

/-- The Controller's packet addresses register 0 of type 1. -/
theorem caAutocfg_eq (cfg : Cfg) (die : BitVec 1) :
    caAutocfg cfg die =
      caOf { we := true, aspace := true, burst := true, addr := regAddr cfg (die.zeroExtend 2) 1#8 0#3 } := rfl

/-- Settles O7: die 0 leaves the register address 0x800 as it is, and die 1 of two sets address bit `DIE_BIT` beside it. -/
theorem autoconfigurationPacket : Obligations.AutoconfigurationPacket := by
  intro cfg
  have hpacket : caOf { we := true, aspace := true, burst := true, addr := 0x800#32 } = 0x600001000000#48 := by decide
  refine ⟨?_, fun hbanks hlow hhigh => ?_⟩
  · have haddr : regAddr cfg ((0#1).zeroExtend 2) 1#8 0#3 = 0x800#32 := by simp [regAddr_eq, selectsUpperDie]
    rw [caAutocfg_eq, haddr, hpacket]
  · have haddr : regAddr cfg ((1#1).zeroExtend 2) 1#8 0#3 = 1#32 <<< cfg.dieBit ||| 0x800#32 := by
      simp [regAddr_eq, selectsUpperDie, hbanks]
    have hset := caOf_or_addr_bit { we := true, aspace := true, burst := true, addr := 0x800#32 } hlow hhigh
    rw [caAutocfg_eq, haddr, hset, hpacket]

end Sys2Proof.Proofs
end

section
/-! Proofs about the record that construction returns (40_configuration.md R152 to R173): the CR0 value, which check is reported, on
what each check fires, and the delays of an accepted configuration. -/

namespace Sys2Proof.Proofs

open Sys2Proof Sys2Proof.Machine Sys2Proof.Laws

/-! ## The CR0 value -/

/-- The value bit by bit: the code in bits 7:4, the flag in bit 3, elsewhere the base. -/
theorem cr0Of_getLsbD (base : HalfWord) (il : Nat) (fixed : Bool) {k : Nat} (hk : k < 16) :
    (cr0Of base il fixed).getLsbD k =
      if 4 ≤ k ∧ k < 8 then (latCode il).getLsbD (k - 4) else if k = 3 then fixed else base.getLsbD k := by
  interval_cases k <;> simp [cr0Of]

theorem cr0Of_latencyCode (base : HalfWord) (il : Nat) (fixed : Bool) :
    (cr0Of base il fixed).extractLsb' 4 4 = latCode il := by
  apply BitVec.eq_of_getLsbD_eq
  intro k hk
  have hfield : 4 ≤ 4 + k ∧ 4 + k < 8 := by omega
  rw [BitVec.getLsbD_extractLsb', cr0Of_getLsbD base il fixed (by omega), if_pos hfield, Nat.add_sub_cancel_left]
  simp [hk]

/-- The mask 0xFF07 holds exactly the bits outside both fields. -/
theorem cr0Of_and_mask (base : HalfWord) (il : Nat) (fixed : Bool) :
    cr0Of base il fixed &&& 0xFF07#16 = base &&& 0xFF07#16 := by
  apply BitVec.eq_of_getLsbD_eq
  intro k hk
  rw [BitVec.getLsbD_and, BitVec.getLsbD_and, cr0Of_getLsbD base il fixed hk]
  interval_cases k <;> simp

theorem latencyOfCode_latCode {il : Nat} (hlow : 3 ≤ il) (hhigh : il ≤ 7) : latencyOfCode (latCode il) = il := by
  interval_cases il <;> rfl

theorem latCode_toNat (il : Nat) : (latCode il).toNat = (il + 11) % 16 := BitVec.toNat_ofNat _ _

/-- Settles O11: the value bit by bit, and the code's inverse on each of the five latencies. -/
theorem cr0Fields : Obligations.Cr0Fields := by
  intro base il fixed hlow hhigh
  exact ⟨cr0Of_latencyCode base il fixed, cr0Of_getLsbD base il fixed (k := 3) (by decide), cr0Of_and_mask base il fixed,
    latencyOfCode_latCode hlow hhigh, latCode_toNat il⟩

/-! ## Which check is reported -/

theorem construct_eq_error_iff (i : ConstructInputs) (e : ConfigurationError) :
    construct i = .error e ↔ ConfigurationError.order.find? i.fires = some e := by
  unfold construct
  split <;> simp [*]

theorem construct_eq_ok_iff (i : ConstructInputs) (c : Cfg) : construct i = .ok c ↔ (∀ e, i.fires e = false) ∧ c = i.cfg := by
  refine ⟨construct_ok, fun ⟨hnone, hc⟩ => ?_⟩
  cases h : construct i with
  | error e => simpa [hnone e] using construct_error h
  | ok c' => rw [hc, (construct_ok h).2]

/-- The reported check fires and no check before it does. -/
theorem construct_eq_error_iff_first (i : ConstructInputs) (e : ConfigurationError) :
    construct i = .error e ↔
      ∃ before after, ConfigurationError.order = before ++ e :: after ∧ i.fires e = true ∧ ∀ x ∈ before, i.fires x = false := by
  rw [construct_eq_error_iff, List.find?_eq_some_iff_append]
  constructor
  · rintro ⟨he, before, after, horder, hbefore⟩
    exact ⟨before, after, horder, he, by simpa using hbefore⟩
  · rintro ⟨before, after, horder, he, hbefore⟩
    exact ⟨he, before, after, horder, by simpa using hbefore⟩

/-- Settles O8: the search for the first check that fires, and construction's answer passed on to power-on. -/
theorem constructionReportsFirstCheck : Obligations.ConstructionReportsFirstCheck := by
  intro i
  refine ⟨construct_eq_error_iff_first i, construct_eq_ok_iff i, fun e h => ?_, fun c h => ?_⟩
  · rw [State.powerOn, h]
  · rw [State.powerOn, h]

/-- The reported check stands no later in the order than any check that fires. -/
theorem idxOf_le_of_construct_error {i : ConstructInputs} {e e' : ConfigurationError} (h : construct i = .error e)
    (he' : i.fires e' = true) : ConfigurationError.order.idxOf e ≤ ConfigurationError.order.idxOf e' := by
  obtain ⟨before, after, horder, he, hbefore⟩ := (construct_eq_error_iff_first i e).mp h
  have hnot {x : ConfigurationError} (hx : i.fires x = true) : x ∉ before := fun hmem => by simp [hbefore x hmem] at hx
  rw [horder, List.idxOf_append, List.idxOf_append, if_neg (hnot he), if_neg (hnot he'), List.idxOf_cons_self]
  omega

/-! ## What each check looks at -/

theorem count_eq_one_iff (l : Lanes) : l.count = 1 ↔ l = .one := by cases l <;> decide

theorem count_eq_two_iff (l : Lanes) : l.count = 2 ↔ l = .two := by cases l <;> decide

theorem dieBit_eq {p : DeviceProfile} {a b : Nat} (hrows : p.rows = 2 ^ a) (hcolumns : p.columns = 2 ^ b) :
    p.dieBit = a + b := by
  rw [DeviceProfile.dieBit, hrows, hcolumns, Nat.log2_two_pow, Nat.log2_two_pow]

section Checks

variable (i : ConstructInputs)

theorem fires_e0Profile_eq_false_iff :
    i.fires .e0Profile = false ↔
      (i.profile.bankCount = 1 ∨ i.profile.bankCount = 2) ∧
      (∃ a b, i.profile.rows = 2 ^ a ∧ i.profile.columns = 2 ^ b ∧ a + b ≤ 31) ∧ 3 ≤ i.profile.maxInitialLatency := by
  simp only [ConstructInputs.fires, DeviceProfile.sane, Bool.not_eq_false', Bool.and_eq_true, Bool.or_eq_true, beq_iff_eq,
    decide_eq_true_eq, isPowerOfTwo_iff]
  constructor
  · rintro ⟨⟨⟨⟨hbanks, a, hrows⟩, b, hcolumns⟩, hdie⟩, hmax⟩
    exact ⟨hbanks, ⟨a, b, hrows, hcolumns, dieBit_eq hrows hcolumns ▸ hdie⟩, hmax⟩
  · rintro ⟨hbanks, ⟨a, b, hrows, hcolumns, hdie⟩, hmax⟩
    exact ⟨⟨⟨⟨hbanks, a, hrows⟩, b, hcolumns⟩, (dieBit_eq hrows hcolumns).symm ▸ hdie⟩, hmax⟩

theorem fires_e1Freq_iff : i.fires .e1Freq = true ↔ i.profile.maxClock < i.fBus := by simp [ConstructInputs.fires]

theorem fires_e2Range_iff :
    i.fires .e2Range = true ↔ i.il < 3 ∨ i.profile.maxInitialLatency < i.il ∨ 7 < i.il := by
  simp [ConstructInputs.fires, or_assoc]

theorem fires_e3MinLat_iff : i.fires .e3MinLat = true ↔ i.il < i.profile.minLatency i.fBus := by simp [ConstructInputs.fires]

theorem fires_e4FixedRequired_iff :
    i.fires .e4FixedRequired = true ↔ i.fixed = false ∧ (i.profile.bankCount = 2 ∨ i.lanes = .two) := by
  simp [ConstructInputs.fires]

theorem fires_e5PhyRoundtrip_iff :
    i.fires .e5PhyRoundtrip = true ↔ i.lanes = .one ∧ i.fixed = false ∧ i.cfg.wlat false < 0 := by
  simp [ConstructInputs.fires, and_assoc]

theorem fires_e6LongNegative_iff : i.fires .e6LongNegative = true ↔ i.lanes = .one ∧ i.cfg.wlat true < 0 := by
  simp [ConstructInputs.fires]

theorem fires_e7SampleWindow_iff :
    i.fires .e7SampleWindow = true ↔ i.lanes = .one ∧ i.fixed = false ∧ i.txLatency + i.rxLatency < 2 := by
  simp [ConstructInputs.fires, and_assoc]

theorem fires_e8Dlycnt_iff : i.fires .e8Dlycnt = true ↔ i.lanes = .one ∧ 255 < i.cfg.rlat true := by
  simp [ConstructInputs.fires]

end Checks

/-! ## An accepted configuration -/

/-- The delay constants with one lane, whose command-address phase takes three cycles (40_configuration.md R166, R167). -/
theorem wlat_of_one_lane {c : Cfg} (h : c.lanes = .one) (long : Bool) :
    c.wlat long = (c.lat long : Int) - (3 + (c.txLatency + c.rxLatency - 2 : Nat)) := by
  rw [Cfg.wlat, Cfg.fixedOffset, h, selDly_eq, Lanes.caCycles]
  omega

theorem lat_le (c : Cfg) (long : Bool) : c.lat long ≤ 2 * c.il := by
  unfold Cfg.lat
  split <;> omega

/-- The read count is at most the latency less one (40_configuration.md R170). -/
theorem rlat_lt_lat {c : Cfg} (h : c.lanes = .one) (long : Bool) : c.rlat long < c.lat long := by
  rw [Cfg.rlat, wlat_of_one_lane h]
  omega

/-- No latency that passes E2 makes E8 fire (40_configuration.md R170). -/
theorem fires_e2Range_of_fires_e8Dlycnt {i : ConstructInputs} (h : i.fires .e8Dlycnt = true) : i.fires .e2Range = true := by
  obtain ⟨hone, h255⟩ := (fires_e8Dlycnt_iff i).mp h
  have hrlat := rlat_lt_lat (c := i.cfg) hone true
  have hlat : i.cfg.lat true ≤ 2 * i.il := lat_le i.cfg true
  rw [fires_e2Range_iff]
  omega

theorem lanes_eq_one_of_no_check {i : ConstructInputs} (h : ∀ e, i.fires e = false) : i.lanes = .one := by
  have h9 := h .e9Wide
  cases hl : i.lanes with
  | one => rfl
  | two => simp [(fires_e9Wide_iff i).mpr hl] at h9

theorem not_wlat_neg_iff (c : Cfg) (long : Bool) : ¬ c.wlat long < 0 ↔ c.fixedOffset ≤ c.lat long := by
  unfold Cfg.wlat
  omega

theorem wf_iff (c : Cfg) :
    c.wf = true ↔
      c.lanes = .one ∧ (c.nbanks = 1 ∨ c.nbanks = 2) ∧ c.dieBit ≤ 31 ∧ 3 ≤ c.il ∧ c.il ≤ 7 ∧
      (c.fixed = true ∨ c.nbanks = 1 ∧ c.fixedOffset ≤ c.il ∧ 2 ≤ c.txLatency + c.rxLatency) ∧ c.fixedOffset ≤ 2 * c.il := by
  simp [Cfg.wf, and_assoc]

/-- Without fixed latency there is one die, by E4, the short latency covers the fixed offset, by E5, and the latency indicator is sampled
in its window, by E7 (40_configuration.md R159, R161). -/
theorem variable_latency_of_no_check {i : ConstructInputs} (h : ∀ e, i.fires e = false) (hfixed : i.fixed = false) :
    i.profile.bankCount = 1 ∧ i.cfg.fixedOffset ≤ i.il ∧ 2 ≤ i.txLatency + i.rxLatency := by
  have hone := lanes_eq_one_of_no_check h
  have hnot (e : ConfigurationError) : ¬ i.fires e = true := by simp [h e]
  obtain ⟨hbanks, -, -⟩ := (fires_e0Profile_eq_false_iff i).mp (h .e0Profile)
  have hdual : i.profile.bankCount ≠ 2 := fun htwo =>
    hnot .e4FixedRequired ((fires_e4FixedRequired_iff i).mpr ⟨hfixed, .inl htwo⟩)
  have hshort : ¬ i.cfg.wlat false < 0 := fun hlt =>
    hnot .e5PhyRoundtrip ((fires_e5PhyRoundtrip_iff i).mpr ⟨hone, hfixed, hlt⟩)
  have hwindow : ¬ i.txLatency + i.rxLatency < 2 := fun hlt =>
    hnot .e7SampleWindow ((fires_e7SampleWindow_iff i).mpr ⟨hone, hfixed, hlt⟩)
  exact ⟨hbanks.resolve_right hdual, (not_wlat_neg_iff i.cfg false).mp hshort, not_lt.mp hwindow⟩

theorem wf_of_no_check {i : ConstructInputs} (h : ∀ e, i.fires e = false) : i.cfg.wf = true := by
  have hone := lanes_eq_one_of_no_check h
  have hnot (e : ConfigurationError) : ¬ i.fires e = true := by simp [h e]
  obtain ⟨hbanks, ⟨a, b, hrows, hcolumns, hdie⟩, -⟩ := (fires_e0Profile_eq_false_iff i).mp (h .e0Profile)
  have hrange := mt (fires_e2Range_iff i).mpr (hnot .e2Range)
  obtain ⟨hlow, hhigh⟩ : 3 ≤ i.il ∧ i.il ≤ 7 := by omega
  have hlong : ¬ i.cfg.wlat true < 0 := fun hlt => hnot .e6LongNegative ((fires_e6LongNegative_iff i).mpr ⟨hone, hlt⟩)
  have hused : i.fixed = true ∨ i.profile.bankCount = 1 ∧ i.cfg.fixedOffset ≤ i.il ∧ 2 ≤ i.txLatency + i.rxLatency := by
    cases hfixed : i.fixed with
    | true => exact .inl rfl
    | false => exact .inr (variable_latency_of_no_check h hfixed)
  exact (wf_iff i.cfg).mpr ⟨hone, hbanks, (dieBit_eq hrows hcolumns).trans_le hdie, hlow, hhigh, hused,
    (not_wlat_neg_iff i.cfg true).mp hlong⟩

/-- A latency that is used is that of some value of the latency indicator. -/
theorem exists_longLatency_eq {c : Cfg} {long : Bool} (h : long = true ∨ c.fixed = false) : ∃ phy, longLatency c phy = long := by
  refine ⟨{ dqIn := 0#16, rwdsIn := if long then 0b11#2 else 0b00#2, pllLocked := false }, ?_⟩
  cases long with
  | true => simp [longLatency]
  | false => simp [longLatency, h.resolve_left Bool.false_ne_true]

/-- The PHY's two latencies together are at most 13, since the long latency, at most 14, covers the fixed offset. -/
theorem phy_latency_le_of_wf {c : Cfg} (h : c.wf = true) : c.txLatency + c.rxLatency ≤ 13 := by
  have hoffset := fixedOffset_eq h
  obtain ⟨-, -, -, -, hil, -, hle⟩ := (wf_iff c).mp h
  omega

theorem rlat_le_of_wf {c : Cfg} (h : c.wf = true) (long : Bool) : c.rlat long ≤ 13 := by
  obtain ⟨hone, -, -, -, hil, -, -⟩ := (wf_iff c).mp h
  have hlt := rlat_lt_lat hone long
  have hle := lat_le c long
  omega

/-- Settles O9: E8 would come with E2, which stands before it; that no check fires is the configuration's well-formedness, and that
bounds its delays. -/
theorem acceptedConfigurationsFit : Obligations.AcceptedConfigurationsFit := by
  intro i
  refine ⟨fun herr => ?_, fun c hok => ?_⟩
  · have h2 := fires_e2Range_of_fires_e8Dlycnt (construct_error herr)
    exact absurd (idxOf_le_of_construct_error herr h2) (by decide)
  · obtain ⟨hnone, rfl⟩ := construct_ok hok
    have hwf := wf_of_no_check hnone
    have hphy := phy_latency_le_of_wf hwf
    refine ⟨hwf, ?_, (Nat.le_add_right _ _).trans hphy, fun long hused => ?_⟩
    · rw [selDly_eq]
      omega
    · obtain ⟨phy, rfl⟩ := exists_longLatency_eq hused
      have hwlat := (not_wlat_neg_iff i.cfg (longLatency i.cfg phy)).mpr (fixedOffset_le_lat hwf phy)
      exact ⟨not_lt.mp hwlat, sub_add_cancel _ _, rfl, rlat_le_of_wf hwf _⟩

/-- Settles O55: the rule's values are the model's functions of the inputs, and with them each check is the lemma of its condition; in an
accepted configuration no check fires, so there is one lane. -/
theorem constructionChecksAndFields : Obligations.ConstructionChecksAndFields := by
  intro i n f il sel fixed w hn hf hil hfixed hsel hw
  obtain rfl : n = i.lanes.count := by
    rw [hn]
    cases i.lanes <;> rfl
  obtain rfl : f = i.fBus := hf
  obtain rfl : il = i.il := by
    rw [hil, ConstructInputs.il]
    cases i.ilOverride <;> rfl
  obtain rfl : fixed = i.fixed := by
    rw [hfixed, ConstructInputs.fixed]
    cases i.fixedOverride with
    | some b => rfl
    | none =>
      rw [Bool.eq_iff_iff]
      simp [count_eq_two_iff]
  obtain rfl : sel = i.cfg.selDly := by
    have hdef : i.cfg.selDly = i.txLatency + i.rxLatency - 2 := rfl
    omega
  have hwlat (hone : i.lanes = .one) (long : Bool) : w long = i.cfg.wlat long := by
    rw [hw, wlat_of_one_lane hone, selDly_eq, Cfg.lat]
    cases long <;> rfl
  simp only [count_eq_one_iff, count_eq_two_iff]
  refine ⟨fires_e0Profile_eq_false_iff i, fires_e1Freq_iff i, fires_e2Range_iff i, fires_e3MinLat_iff i,
    fires_e4FixedRequired_iff i, ?_, ?_, fires_e7SampleWindow_iff i, ?_, fires_e9Wide_iff i, fun c hok => ?_⟩
  · exact (fires_e5PhyRoundtrip_iff i).trans (and_congr_right fun hone => by rw [hwlat hone])
  · exact (fires_e6LongNegative_iff i).trans (and_congr_right fun hone => by rw [hwlat hone])
  · exact (fires_e8Dlycnt_iff i).trans (and_congr_right fun hone => by rw [hwlat hone]; rfl)
  · obtain ⟨hnone, rfl⟩ := construct_ok hok
    have hone := lanes_eq_one_of_no_check hnone
    obtain ⟨-, ⟨a, b, hrows, hcolumns, -⟩, -⟩ := (fires_e0Profile_eq_false_iff i).mp (hnone .e0Profile)
    refine ⟨rfl, hone, rfl, ⟨a, b, hrows, hcolumns, dieBit_eq hrows hcolumns⟩, rfl, rfl, rfl, rfl, rfl, ?_, rfl, rfl, ?_, rfl,
      fun long => ⟨(hwlat hone long).symm, by rw [hwlat hone]; rfl⟩⟩
    · rw [ConstructInputs.cfg]
      cases i.cr0Base <;> rfl
    · exact fixedOffset_eq (wf_of_no_check hnone)

end Sys2Proof.Proofs
end

section
/-! Proofs about one cycle of the Controller: the gate, the state graph, what each state drives and offers, and what its tick depends on
(41_controller.md R191 to R226). -/

namespace Sys2Proof.Proofs

open Sys2Proof Sys2Proof.Machine Sys2Proof.Safety Sys2Proof.Laws

section Gate

variable {c : Ctl}

/-- With the gate closed the port offers nothing (41_controller.md R195). -/
theorem portOut_of_not_gate (h : c.gate = false) (phy : PhyIn) :
    (c.portOut phy).cmdReady = false ∧ (c.portOut phy).wdataReady = false ∧ (c.portOut phy).rdataValid = false := by
  refine ⟨by simp [Ctl.portOut, h], ?_, by simp [Ctl.portOut, h]⟩
  simp only [Ctl.portOut, h]
  split <;> rfl

/-- With the counter at 0 the state's rule is followed (41_controller.md R195). -/
theorem tick_of_dlycnt (h : c.dlycnt = 0#8) (cfg : Cfg) (mp : PortIn) (phy : PhyIn) :
    c.tick cfg mp phy = c.tickOpen cfg mp phy :=
  tick_of_gate ((gate_iff c).2 h) mp phy

theorem ctlRun_eq_foldl (cfg : Cfg) (c : Ctl) (is : List (PortIn × PhyIn)) :
    ctlRun cfg c is = is.foldl (fun d i => d.tick cfg i.1 i.2) c := by
  induction is generalizing c with
  | nil => rfl
  | cons i is ih => exact ih _

end Gate

/-- Settles O19: a closed gate counts, an open one follows the rule, and a run of the counter's length is `ctlRun_countdown`. -/
theorem gateCountsDown : Obligations.GateCountsDown := by
  intro cfg c
  refine ⟨fun mp phy h => ?_, fun mp phy h => tick_of_dlycnt h cfg mp phy, fun is his => ?_⟩
  · have hg : c.gate = false := by simpa [Ctl.gate] using h
    have hpos : (c.dlycnt - 1#8).toNat + 1 = c.dlycnt.toNat := by bv_omega
    exact ⟨tick_of_not_gate hg mp phy, hpos, portOut_of_not_gate hg phy⟩
  · rw [← ctlRun_eq_foldl]
    exact ctlRun_countdown cfg c is (by rw [his, BitVec.ofNat_toNat, BitVec.setWidth_eq]) (by rw [his]; exact c.dlycnt.isLt)

section Graph

variable {cfg : Cfg} {c c' : Ctl} {mp : PortIn} {phy : PhyIn}

/-- With the gate open the Controller waits where it may, or goes to a successor (41_controller.md R191; 60_exceptions.md R374). -/
theorem CtlMove.successor_or_wait (hm : CtlMove cfg c mp phy c') (hg : c.gate = true) :
    c'.state ∈ successors c ∨ c' = c ∧ mayWait c = true := by
  cases hm with
  | count closed => simp [hg] at closed
  | wait _ may => exact .inr ⟨rfl, may⟩
  | autocfg _ idle | command _ idle => exact .inl (by simp [successors, idle])
  | follow _ _ _ _ succ => exact .inl succ
  | finish _ _ _ ending => exact .inl (by simp [successors, ending])

end Graph

/-- Settles O20: every tick is a `CtlMove`. -/
theorem controllerStateGraph : Obligations.ControllerStateGraph := by
  intro cfg c mp phy
  have hm := tick_move cfg c mp phy
  refine ⟨?_, fun hg hmay => ?_, hm.packet⟩
  · cases hg : c.gate with
    | false => exact .inl (by rw [tick_of_not_gate hg])
    | true =>
      rcases hm.successor_or_wait hg with hsucc | ⟨heq, -⟩
      · exact .inr hsucc
      · exact .inl (by rw [heq])
  · rcases hm.successor_or_wait hg with hsucc | ⟨-, may⟩
    · exact hsucc
    · simp [hmay] at may

section States

variable {cfg : Cfg} {c : Ctl} {mp : PortIn} {phy : PhyIn}

theorem tick_idle (hs : c.state = .idle) (hd : c.dlycnt = 0#8) : c.tick cfg mp phy = c.tickIdle cfg mp phy := by
  rw [tick_of_dlycnt hd, Ctl.tickOpen, hs]

theorem tick_selectOp (hs : c.state = .selectOp) (hd : c.dlycnt = 0#8) : c.tick cfg mp phy = c.tickSelectOp cfg mp := by
  rw [tick_of_dlycnt hd, Ctl.tickOpen, hs]

theorem tick_stream (hs : c.state = .write ∨ c.state = .writeReg) (hd : c.dlycnt = 0#8) :
    c.tick cfg mp phy = c.tickStream cfg mp := by
  rw [tick_of_dlycnt hd, Ctl.tickOpen]
  rcases hs with hs | hs <;> rw [hs]

theorem tick_read (hs : c.state = .read) (hd : c.dlycnt = 0#8) : c.tick cfg mp phy = c.tickRead mp phy := by
  rw [tick_of_dlycnt hd, Ctl.tickOpen, hs]

end States

/-- Settles O21: the branches of `Ctl.tickIdle`. -/
theorem idleLaunches : Obligations.IdleLaunches := by
  intro cfg c mp phy hs hd
  have hg : c.gate = true := (gate_iff c).2 hd
  rw [tick_idle hs hd]
  refine ⟨by simp [Ctl.bus, hs], by simp [Ctl.portOut, hs, hg], by simp [Ctl.portOut, hs], by simp [Ctl.portOut, hs],
    fun hl => ?_, fun hl hp => ?_, fun hl hp hv => ?_, fun hl hp hv => ?_⟩
  · simp [Ctl.tickIdle, hl]
  · simp [Ctl.tickIdle, hl, hp, Ctl.launch]
  · simp [Ctl.tickIdle, hl, hp, hv, Ctl.launch]
  · simp [Ctl.tickIdle, hl, hp, hv]

/-- Settles O22: the gate divides the latency slots from the data cycles, and the offered word the branches of those. -/
theorem writeStreams : Obligations.WriteStreams := by
  intro cfg c mp phy hs
  refine ⟨fun hg => ?_, fun hg => ?_⟩
  · have hbus : c.bus cfg mp = BusOut.drive 0#16 := by simp [Ctl.bus, hs, hg]
    exact ⟨hbus, (portOut_of_not_gate hg phy).2.1⟩
  · have hbus : c.bus cfg mp = BusOut.memWord mp := by simp [Ctl.bus, hs, hg]
    rw [hbus, tick_stream (.inl hs) ((gate_iff c).1 hg)]
    refine ⟨by simp [Ctl.portOut, hs, hg], fun hv => ⟨by simp [BusOut.memWord, hv], fun hl => ?_, fun hl => ?_⟩,
      fun hv => ⟨by simp [BusOut.memWord, hv], ?_⟩⟩
    · simp [Ctl.tickStream, hv, hl, Ctl.enter, Cfg.endwDly]
    · simp [Ctl.tickStream, hl]
    · simp [Ctl.tickStream, hv]

/-- Settles O23: `Ctl.tickRead` tests exactly the transfer with `last`. -/
theorem readOffersStrobedWords : Obligations.ReadOffersStrobedWords := by
  intro cfg c mp phy hs
  refine ⟨by simp [Ctl.bus, hs, BusOut.listen], by simp [Ctl.portOut, hs], rfl, fun hg => ?_⟩
  rw [tick_read hs ((gate_iff c).1 hg), Ctl.tickRead]
  exact ⟨fun h => if_pos (by simp [h]), fun h => if_neg (by simpa [and_assoc] using h)⟩

/-- Settles O24: the Controller's own write is one branch of `SELECT_OP`; a client's first word is the other, and its later ones are
those of `WRITE_REG`. -/
theorem registerWriteStreams : Obligations.RegisterWriteStreams := by
  intro cfg c mp phy hd hread hreg
  have hg : c.gate = true := (gate_iff c).2 hd
  have hpath : c.regWritePath = true := by simp [Ctl.regWritePath, hread, hreg]
  refine ⟨fun hs ha => ?_, ?_⟩
  · rw [tick_selectOp hs hd]
    exact ⟨by simp [Ctl.bus, hs, hpath, ha, BusOut.drive], by simp [Ctl.portOut, hs, ha],
      by simp [Ctl.tickSelectOp, hread, hreg, ha, Ctl.enter, Cfg.endwDly]⟩
  · rintro (⟨hs, ha⟩ | hs)
    · rw [tick_selectOp hs hd]
      have hword : c.tickSelectOp cfg mp = if mp.wdataValid then
          (if mp.wdata.last then c.enter .endWrite cfg.endwDly else { c with state := .writeReg }) else c := by
        simp [Ctl.tickSelectOp, hread, hreg, ha]
      rw [hword]
      refine ⟨by simp [Ctl.portOut, hs, hg, hpath, ha], by simp [Ctl.bus, hs, hpath, ha, BusOut.regWord], fun hv => ?_,
        fun hv hl => ?_, fun hv hl => ?_⟩
      · simp [hv]
      · simp [hv, hl, Ctl.enter, Cfg.endwDly]
      · simp [hv, hl]
    · rw [tick_stream (.inr hs) hd]
      refine ⟨by simp [Ctl.portOut, hs, hg], by simp [Ctl.bus, hs, BusOut.regWord], fun hv => ?_, fun hv hl => ?_,
        fun hv hl => ?_⟩
      · simp [Ctl.tickStream, hv]
      · simp [Ctl.tickStream, hv, hl, Ctl.enter, Cfg.endwDly]
      · simp [Ctl.tickStream, hl, ← hs]

/-- Settles O25: the rows of the output table (41_controller.md R226), `SELECT_OP` by its path and `WRITE` by the gate. -/
theorem controllerDrives : Obligations.ControllerDrives := by
  intro cfg c mp
  cases hs : c.state with
  | idle | endRead => simp [Ctl.bus, hs, BusOut.idle, CoreState.outputs]
  | caWord0 | caWord1 | caWord2 | writeDelay => simp [Ctl.bus, hs, BusOut.drive, CoreState.outputs]
  | readDelay | read => simp [Ctl.bus, hs, BusOut.listen, CoreState.outputs]
  | endWrite => simp [Ctl.bus, hs, BusOut.park, CoreState.outputs]
  | writeReg => simp [Ctl.bus, hs, BusOut.regWord, CoreState.outputs]
  | selectOp =>
    cases hp : c.regWritePath <;> cases ha : c.autoTxn <;>
      simp [Ctl.bus, hs, hp, ha, BusOut.drive, BusOut.regWord, CoreState.outputs]
  | write => cases hg : c.gate <;> simp [Ctl.bus, hs, hg, BusOut.drive, BusOut.memWord, CoreState.outputs]

/-- Settles O26: only `IDLE` looks at the lock, only the delay states at the latency indicator, and only `READ` at the samples. -/
theorem rwdsReadOnlyWhereStated : Obligations.RwdsReadOnlyWhereStated := by
  intro cfg c mp p q hlock hread hdelay
  cases hg : c.gate with
  | false => rw [tick_of_not_gate hg, tick_of_not_gate hg]
  | true =>
    simp only [hg, and_true] at hread hdelay
    have hlong (hs : c.state = .writeDelay ∨ c.state = .readDelay) : longLatency cfg p = longLatency cfg q := by
      simp [longLatency, hdelay.resolve_right (not_not_intro hs)]
    rw [tick_of_gate hg, tick_of_gate hg, Ctl.tickOpen, Ctl.tickOpen]
    cases hs : c.state with
    | idle => simp [Ctl.tickIdle, hlock]
    | writeDelay => simp [hlong (.inl hs)]
    | readDelay => simp [hlong (.inr hs)]
    | read => exact absurd hs hread
    | caWord0 | caWord1 | caWord2 | selectOp | write | writeReg | endWrite | endRead => rfl

end Sys2Proof.Proofs
end

section
/-! Legs: stretches of a transaction of the Controller, with where they lead, what they drive and which words pass in them. The legs of
41_controller.md R228 to R240 are put together from the packet, the delay, the data cycles and the end of a write. -/

namespace Sys2Proof.Proofs

open Sys2Proof Sys2Proof.Machine Sys2Proof.Safety Sys2Proof.Laws

/-- The word a client hands over in a cycle (20_memory.md R61). -/
def handedWord (i : PortIn) (o : PortOut) : Option WItem := if i.wdataValid && o.wdataReady then some i.wdata else none

/-- The word a client takes in a cycle (20_memory.md R61). -/
def takenWord (i : PortIn) (o : PortOut) : Option HalfWord := if o.rdataValid && i.rdataReady then some o.rdataData else none

/-- Both sides of the Controller's port, cycle by cycle. -/
def ctlPorts (cfg : Cfg) : Ctl → List (PortIn × PhyIn) → List (PortIn × PortOut)
  | _, [] => []
  | c, i :: is => (i.1, c.portOut i.2) :: ctlPorts cfg (c.tick cfg i.1 i.2) is

theorem ctlPorts_append (cfg : Cfg) (c : Ctl) (is js : List (PortIn × PhyIn)) :
    ctlPorts cfg c (is ++ js) = ctlPorts cfg c is ++ ctlPorts cfg (ctlRun cfg c is) js := by
  induction is generalizing c with
  | nil => rfl
  | cons i is ih => simp only [List.cons_append, ctlPorts, ctlRun, ih]

/-- The Controller goes from `c` to `c'` over the cycles `is`, never in `IDLE`, driving `bs`, taking the words `handed` and delivering the
words `taken`. -/
structure Leg (cfg : Cfg) (c : Ctl) (is : List (PortIn × PhyIn)) (c' : Ctl) (bs : List BusOut) (handed : List WItem)
    (taken : List HalfWord) : Prop where
  run : ctlRun cfg c is = c'
  bus : ctlBus cfg c is = bs
  inFlight : InFlight cfg c is
  handed : (ctlPorts cfg c is).filterMap (fun p => handedWord p.1 p.2) = handed
  taken : (ctlPorts cfg c is).filterMap (fun p => takenWord p.1 p.2) = taken

section Combine

variable {cfg : Cfg} {c c' c'' : Ctl} {is js : List (PortIn × PhyIn)} {bs bs' : List BusOut} {h h' : List WItem} {t t' : List HalfWord}

theorem Leg.append (hl : Leg cfg c is c' bs h t) (hl' : Leg cfg c' js c'' bs' h' t') :
    Leg cfg c (is ++ js) c'' (bs ++ bs') (h ++ h') (t ++ t') where
  run := by rw [ctlRun_append, hl.run, hl'.run]
  bus := by rw [ctlBus_append, hl.run, hl.bus, hl'.bus]
  inFlight := inFlight_append.2 ⟨hl.inFlight, by rw [hl.run]; exact hl'.inFlight⟩
  handed := by rw [ctlPorts_append, hl.run, List.filterMap_append, hl.handed, hl'.handed]
  taken := by rw [ctlPorts_append, hl.run, List.filterMap_append, hl.taken, hl'.taken]

theorem leg_nil (cfg : Cfg) (c : Ctl) : Leg cfg c [] c [] [] [] := ⟨rfl, rfl, trivial, rfl, rfl⟩

/-- One cycle. -/
theorem leg_cycle (cfg : Cfg) {c : Ctl} (hs : c.state ≠ .idle) (i : PortIn × PhyIn) :
    Leg cfg c [i] (c.tick cfg i.1 i.2) [c.bus cfg i.1] (handedWord i.1 (c.portOut i.2)).toList
      (takenWord i.1 (c.portOut i.2)).toList where
  run := rfl
  bus := rfl
  inFlight := ⟨hs, trivial⟩
  handed := by cases hw : handedWord i.1 (c.portOut i.2) <;> simp [ctlPorts, hw]
  taken := by cases hw : takenWord i.1 (c.portOut i.2) <;> simp [ctlPorts, hw]

end Combine

/-! ## Cycles in which no word passes -/

/-- The Controller neither takes nor offers a word. -/
def NoWord (o : PortOut) : Prop := o.wdataReady = false ∧ o.rdataValid = false

theorem handedWord_of_noWord {o : PortOut} (h : NoWord o) (i : PortIn) : handedWord i o = none := by
  simp [handedWord, h.1]

theorem takenWord_of_noWord {o : PortOut} (h : NoWord o) (i : PortIn) : takenWord i o = none := by
  simp [takenWord, h.2]

/-- The states in which the port never passes a word. -/
def silentState (st : CtlState) : Prop :=
  st = .idle ∨ st = .caWord0 ∨ st = .caWord1 ∨ st = .caWord2 ∨ st = .writeDelay ∨ st = .endWrite ∨ st = .readDelay ∨ st = .endRead

theorem noWord_of_silentState {c : Ctl} (hs : silentState c.state) (phy : PhyIn) : NoWord (c.portOut phy) := by
  rcases hs with hs | hs | hs | hs | hs | hs | hs | hs <;> simp [NoWord, Ctl.portOut, hs]

theorem noWord_of_not_gate {c : Ctl} (hg : c.gate = false) (phy : PhyIn) : NoWord (c.portOut phy) :=
  (portOut_of_not_gate hg phy).2

section Silent

variable {cfg : Cfg} {c c' : Ctl} {i : PortIn × PhyIn} {b : BusOut}

theorem leg_of_noWord {is : List (PortIn × PhyIn)} {bs : List BusOut} (hrun : ctlRun cfg c is = c') (hbus : ctlBus cfg c is = bs)
    (hfly : InFlight cfg c is) (hn : ∀ p ∈ ctlPorts cfg c is, NoWord p.2) : Leg cfg c is c' bs [] [] where
  run := hrun
  bus := hbus
  inFlight := hfly
  handed := List.filterMap_eq_nil_iff.2 fun p hp => handedWord_of_noWord (hn p hp) p.1
  taken := List.filterMap_eq_nil_iff.2 fun p hp => takenWord_of_noWord (hn p hp) p.1

/-- One cycle in which no word passes. -/
theorem leg_silentCycle (hs : c.state ≠ .idle) (hn : NoWord (c.portOut i.2)) (ht : c.tick cfg i.1 i.2 = c')
    (hb : c.bus cfg i.1 = b) : Leg cfg c [i] c' [b] [] [] := by
  have hl := leg_cycle cfg hs i
  rwa [handedWord_of_noWord hn, takenWord_of_noWord hn, ht, hb] at hl

/-- The counter runs down, and no word passes (41_controller.md R195). -/
theorem leg_countdown {is : List (PortIn × PhyIn)} (hs : c.state ≠ .idle) (hd : c.dlycnt = BitVec.ofNat 8 is.length)
    (hn : is.length < 256)
    (hb : ∀ d mp, Ctl.gate { c with dlycnt := d } = false → Ctl.bus cfg { c with dlycnt := d } mp = b) :
    Leg cfg c is { c with dlycnt := 0#8 } (List.replicate is.length b) [] [] := by
  have hsilent : ∀ p ∈ ctlPorts cfg c is, NoWord p.2 := by
    clear hb hs
    induction is generalizing c with
    | nil => exact List.forall_mem_nil _
    | cons i is ih =>
      rw [List.length_cons] at hd hn
      have hg : c.gate = false := by rw [gate_ofNat hd hn]; simp
      rw [ctlPorts, tick_of_not_gate hg]
      refine List.forall_mem_cons.2 ⟨noWord_of_not_gate hg i.2, ih ?_ (by omega)⟩
      simp only [hd]
      rw [BitVec.ofNat_add, BitVec.add_sub_cancel]
  exact leg_of_noWord (ctlRun_countdown cfg c is hd hn) (ctlBus_countdown cfg c is b hd hn hb)
    (inFlight_countdown cfg c is hd hn hs) hsilent

end Silent

/-! ## The packet and the delay -/

section Opening

variable {cfg : Cfg} {c : Ctl}

/-- The three command-address cycles (41_controller.md R201 to R203). -/
theorem leg_packet (cfg : Cfg) {c : Ctl} (hs : c.state = .caWord0) (hd : c.dlycnt = 0#8) {pk : List (PortIn × PhyIn)}
    (hp : pk.length = 3) : Leg cfg c pk { c with state := .selectOp } (caCycles c.ca) [] [] := by
  match pk, hp with
  | [i, j, k], _ =>
    obtain ⟨hrun, hbus⟩ := ctlRun_packet cfg c i j k hs hd
    have hfirst : c.tick cfg i.1 i.2 = { c with state := .caWord1 } := by rw [tick_of_dlycnt hd]; simp [Ctl.tickOpen, hs]
    have hsecond : Ctl.tick cfg { c with state := .caWord1 } j.1 j.2 = { c with state := .caWord2 } :=
      tick_of_dlycnt (c := { c with state := .caWord1 }) hd _ _ _
    refine leg_of_noWord hrun hbus (inFlight_packet cfg c i j k hs hd) ?_
    simp only [ctlPorts, hfirst, hsecond, List.forall_mem_cons]
    exact ⟨noWord_of_silentState (by simp [silentState, hs]) _, noWord_of_silentState (by simp [silentState]) _,
      noWord_of_silentState (by simp [silentState]) _, List.forall_mem_nil _⟩

/-- The delay state of the packet's path with latency (41_controller.md R191). -/
def delayState (c : Ctl) : CtlState := if caRead c.ca then .readDelay else .writeDelay

/-- The data state of the packet's path with latency (41_controller.md R191). -/
def dataState (c : Ctl) : CtlState := if caRead c.ca then .read else .write

/-- What the path drives in its latency slots: a read leaves them to the device (41_controller.md R208, R216). -/
def delayBus (c : Ctl) : BusOut := if caRead c.ca then BusOut.listen else BusOut.drive 0#16

/-- The data state's load (41_controller.md R208, R216). -/
def delayLoad (cfg : Cfg) (c : Ctl) (long : Bool) : Nat := (if caRead c.ca then cfg.rlat long else cfg.wlat long).toNat

theorem delayState_ne_idle (c : Ctl) : delayState c ≠ .idle := by unfold delayState; split <;> simp

theorem dataState_ne_idle (c : Ctl) : dataState c ≠ .idle := by unfold dataState; split <;> simp

theorem silentState_delayState (c : Ctl) : silentState (delayState c) := by unfold delayState silentState; split <;> simp

theorem bus_delayState (mp : PortIn) (d : BitVec 8) : Ctl.bus cfg { c with state := delayState c, dlycnt := d } mp = delayBus c := by
  unfold delayState delayBus
  cases caRead c.ca <;> rfl

theorem bus_dataState {d : BitVec 8} (hg : Ctl.gate { c with state := dataState c, dlycnt := d } = false) (mp : PortIn) :
    Ctl.bus cfg { c with state := dataState c, dlycnt := d } mp = delayBus c := by
  unfold dataState at hg
  unfold dataState delayBus
  cases hr : caRead c.ca <;> simp [hr] at hg ⊢ <;> simp [Ctl.bus, hg]

/-- `SELECT_OP` of a path with latency (41_controller.md R204, R206). -/
theorem tick_toDelay (hs : c.state = .selectOp) (hd : c.dlycnt = 0#8) (hp : c.regWritePath = false) (mp : PortIn) (phy : PhyIn) :
    c.tick cfg mp phy = c.enter (delayState c) cfg.selDly := by
  rw [tick_selectOp hs hd, Ctl.tickSelectOp, delayState]
  unfold Ctl.regWritePath at hp
  cases hr : caRead c.ca <;> simp_all

theorem noWord_toDelay (hs : c.state = .selectOp) (hp : c.regWritePath = false) (phy : PhyIn) : NoWord (c.portOut phy) := by
  simp [NoWord, Ctl.portOut, hs, hp]

/-- The gated cycle of the delay state: the latency indicator is sampled (41_controller.md R208, R216). -/
theorem tick_delayState (mp : PortIn) (phy : PhyIn) :
    Ctl.tick cfg { c with state := delayState c, dlycnt := 0#8 } mp phy
      = { c with state := dataState c, dlycnt := BitVec.ofNat 8 (delayLoad cfg c (longLatency cfg phy)) } := by
  rw [tick_of_dlycnt rfl]
  unfold delayState dataState delayLoad
  cases caRead c.ca <;> rfl

/-- Up to the sample of the latency indicator, whatever the PHY answers. -/
theorem leg_toSample (hf : LoadsFit cfg) (hs : c.state = .caWord0) (hd : c.dlycnt = 0#8) (hp : c.regWritePath = false)
    {pre : List (PortIn × PhyIn)} (hlen : pre.length = 4 + cfg.selDly) :
    Leg cfg c pre { c with state := delayState c, dlycnt := 0#8 }
      (caCycles c.ca ++ BusOut.drive 0#16 :: List.replicate cfg.selDly (delayBus c)) [] [] := by
  obtain ⟨pk, l, cnt, rfl, hpk, hcnt⟩ : ∃ pk l cnt, pre = pk ++ ([l] ++ cnt) ∧ pk.length = 3 ∧ cnt.length = cfg.selDly := by
    match pre, hlen with
    | i :: j :: k :: l :: cnt, hlen => exact ⟨[i, j, k], l, cnt, rfl, rfl, by simp at hlen; omega⟩
    | [], hlen | [_], hlen | [_, _], hlen | [_, _, _], hlen => simp at hlen; omega
  have hselect : Leg cfg { c with state := .selectOp } [l] { c with state := delayState c, dlycnt := BitVec.ofNat 8 cfg.selDly }
      [BusOut.drive 0#16] [] [] :=
    leg_silentCycle nofun (noWord_toDelay (c := { c with state := .selectOp }) rfl hp _)
      (tick_toDelay (c := { c with state := .selectOp }) rfl hd hp _ _)
      (if_neg (ne_true_of_eq_false hp))
  have hcount := leg_countdown (cfg := cfg) (b := delayBus c) (is := cnt)
    (c := { c with state := delayState c, dlycnt := BitVec.ofNat 8 cfg.selDly }) (delayState_ne_idle c) (by simp [hcnt])
    (by rw [hcnt]; exact hf.sel) (fun d mp _ => bus_delayState mp d)
  rw [hcnt] at hcount
  exact (leg_packet cfg hs hd hpk).append (hselect.append hcount)

theorem delayLoad_lt (hf : LoadsFit cfg) (c : Ctl) (long : Bool) : delayLoad cfg c long < 256 := by
  unfold delayLoad
  split
  · exact hf.rlat long
  · exact hf.wlat long

/-- A path with latency up to its data (41_controller.md R228 to R230): `m` is the cycle of the latency sample. -/
theorem leg_opening (hf : LoadsFit cfg) (hs : c.state = .caWord0) (hd : c.dlycnt = 0#8) (hp : c.regWritePath = false)
    {pre : List (PortIn × PhyIn)} {m : PortIn × PhyIn} (hm : pre[4 + cfg.selDly]? = some m)
    (hlen : pre.length = 5 + cfg.selDly + delayLoad cfg c (longLatency cfg m.2)) :
    Leg cfg c pre { c with state := dataState c, dlycnt := 0#8 }
      (caCycles c.ca ++ BusOut.drive 0#16 :: List.replicate (pre.length - 4) (delayBus c)) [] [] := by
  obtain ⟨a, cnt, rfl, ha⟩ : ∃ a cnt, pre = a ++ ([m] ++ cnt) ∧ a.length = 4 + cfg.selDly := by
    obtain ⟨hlt, hget⟩ := List.getElem?_eq_some_iff.1 hm
    refine ⟨pre.take (4 + cfg.selDly), pre.drop (4 + cfg.selDly + 1), ?_, by rw [List.length_take]; omega⟩
    rw [← hget, List.singleton_append, ← List.drop_eq_getElem_cons hlt, List.take_append_drop]
  have hcnt : cnt.length = delayLoad cfg c (longLatency cfg m.2) := by simp at hlen; omega
  have hsample : Leg cfg { c with state := delayState c, dlycnt := 0#8 } [m]
      { c with state := dataState c, dlycnt := BitVec.ofNat 8 cnt.length } [delayBus c] [] [] :=
    leg_silentCycle (delayState_ne_idle c) (noWord_of_silentState (silentState_delayState c) _)
      (by rw [tick_delayState, hcnt]) (bus_delayState _ _)
  have hcount := leg_countdown (cfg := cfg) (b := delayBus c) (is := cnt)
    (c := { c with state := dataState c, dlycnt := BitVec.ofNat 8 cnt.length }) (dataState_ne_idle c) rfl
    (by rw [hcnt]; exact delayLoad_lt hf c _) (fun d mp hg => bus_dataState hg mp)
  have hleg := (leg_toSample hf hs hd hp ha).append (hsample.append hcount)
  have hbus : (a ++ ([m] ++ cnt)).length - 4 = cfg.selDly + (1 + cnt.length) := by simp; omega
  rw [hbus, List.replicate_add, List.replicate_add]
  simpa using hleg

end Opening

/-! ## The data cycles -/

/-- The word a client offers. -/
def offeredWord (i : PortIn) : Option WItem := if i.wdataValid then some i.wdata else none

/-- The words offered in the cycles. -/
def offeredWords (is : List (PortIn × PhyIn)) : List WItem := is.filterMap fun i => offeredWord i.1

/-- The word strobed and taken in a cycle. -/
def strobedWord (i : PortIn × PhyIn) : Option HalfWord := if i.2.rwdsIn.getLsbD 1 && i.1.rdataReady then some i.2.dqIn else none

/-- The words strobed and taken in the cycles. -/
def strobedWords (is : List (PortIn × PhyIn)) : List HalfWord := is.filterMap strobedWord

/-- A cycle transfers a word with `last`, if the port is ready. -/
def offersLast (i : PortIn × PhyIn) : Bool := i.1.wdataValid && i.1.wdata.last

/-- A cycle ends a read. -/
def takesLast (i : PortIn × PhyIn) : Bool := i.2.rwdsIn.getLsbD 1 && i.1.rdataReady && i.1.rdataLast

section Data

variable {cfg : Cfg} {c : Ctl}

@[simp] theorem offeredWords_nil : offeredWords [] = [] := rfl

@[simp] theorem offeredWords_cons (i : PortIn × PhyIn) (is : List (PortIn × PhyIn)) :
    offeredWords (i :: is) = (offeredWord i.1).toList ++ offeredWords is := by
  cases h : offeredWord i.1 <;> simp [offeredWords, h]

@[simp] theorem strobedWords_nil : strobedWords [] = [] := rfl

@[simp] theorem strobedWords_cons (i : PortIn × PhyIn) (is : List (PortIn × PhyIn)) :
    strobedWords (i :: is) = (strobedWord i).toList ++ strobedWords is := by
  cases h : strobedWord i <;> simp [strobedWords, h]

/-- One cycle in which an offered word is taken. -/
theorem leg_wordCycle {c' : Ctl} {i : PortIn × PhyIn} {b : BusOut} (hs : c.state ≠ .idle) (hn : c.state ≠ .read)
    (hr : (c.portOut i.2).wdataReady = true) (ht : c.tick cfg i.1 i.2 = c') (hb : c.bus cfg i.1 = b) :
    Leg cfg c [i] c' [b] (offeredWord i.1).toList [] := by
  have hl := leg_cycle cfg hs i
  have hhand : handedWord i.1 (c.portOut i.2) = offeredWord i.1 := by simp [handedWord, offeredWord, hr]
  have htake : takenWord i.1 (c.portOut i.2) = none := by simp [takenWord, Ctl.portOut, hn]
  rwa [ht, hb, hhand, htake] at hl

/-- `WRITE` and `WRITE_REG`: every offered word is taken, up to the one with `last` (41_controller.md R210, R212). -/
theorem leg_stream {f : PortIn → BusOut} (hs : c.state = .write ∨ c.state = .writeReg) (hd : c.dlycnt = 0#8)
    (hf : ∀ mp, c.bus cfg mp = f mp) {ws : List (PortIn × PhyIn)} {w : PortIn × PhyIn} (hws : ∀ x ∈ ws, offersLast x = false)
    (hw : offersLast w = true) :
    Leg cfg c (ws ++ [w]) (c.enter .endWrite cfg.endwDly) ((ws ++ [w]).map fun x => f x.1) (offeredWords (ws ++ [w])) [] := by
  have hi : c.state ≠ .idle := by rcases hs with hs | hs <;> simp [hs]
  have hn : c.state ≠ .read := by rcases hs with hs | hs <;> simp [hs]
  have hready (phy : PhyIn) : (c.portOut phy).wdataReady = true := by
    have hg := (gate_iff c).2 hd
    rcases hs with hs | hs <;> simp [Ctl.portOut, hs, hg]
  have hcycle (x : PortIn × PhyIn) : Leg cfg c [x] (c.tickStream cfg x.1) [f x.1] (offeredWord x.1).toList [] :=
    leg_wordCycle hi hn (hready x.2) (tick_stream hs hd) (hf x.1)
  induction ws with
  | nil =>
    have hl := hcycle w
    rw [Ctl.tickStream, if_pos (show (w.1.wdataValid && w.1.wdata.last) = true from hw)] at hl
    simpa using hl
  | cons x ws ih =>
    obtain ⟨hx, hws⟩ := List.forall_mem_cons.1 hws
    have hl := hcycle x
    rw [Ctl.tickStream, show (x.1.wdataValid && x.1.wdata.last) = false from hx] at hl
    simpa using hl.append (ih hws)

/-- A cycle of `READ` (41_controller.md R218). -/
theorem leg_readCycle (hs : c.state = .read) (hd : c.dlycnt = 0#8) (x : PortIn × PhyIn) :
    Leg cfg c [x] (if takesLast x then { c with state := .endRead } else c) [BusOut.listen] [] (strobedWord x).toList := by
  have hg := (gate_iff c).2 hd
  have hl := leg_cycle cfg (show c.state ≠ .idle by simp [hs]) x
  have hbus : c.bus cfg x.1 = BusOut.listen := by simp [Ctl.bus, hs]
  have hhand : handedWord x.1 (c.portOut x.2) = none := by simp [handedWord, Ctl.portOut, hs]
  have htake : takenWord x.1 (c.portOut x.2) = strobedWord x := by simp [takenWord, strobedWord, Ctl.portOut, hs, hg]
  have htick : c.tick cfg x.1 x.2 = if takesLast x then { c with state := .endRead } else c := by
    rw [tick_read hs hd, Ctl.tickRead]
    simp [takesLast, Ctl.portOut, hs, hg]
  rwa [htick, hbus, hhand, htake] at hl

/-- `READ` goes on while the consumer takes no word with `last`. -/
theorem leg_reading (hs : c.state = .read) (hd : c.dlycnt = 0#8) {ws : List (PortIn × PhyIn)} (hws : ∀ x ∈ ws, takesLast x = false) :
    Leg cfg c ws c (List.replicate ws.length BusOut.listen) [] (strobedWords ws) := by
  induction ws with
  | nil => exact leg_nil cfg c
  | cons x ws ih =>
    obtain ⟨hx, hws⟩ := List.forall_mem_cons.1 hws
    have hl := leg_readCycle (cfg := cfg) hs hd x
    rw [hx] at hl
    simpa [List.replicate_succ] using hl.append (ih hws)

/-- `READ`: the consumer takes the strobed words it is ready for, up to the one it takes with `last` (41_controller.md R218). -/
theorem leg_read (hs : c.state = .read) (hd : c.dlycnt = 0#8) {ws : List (PortIn × PhyIn)} {w : PortIn × PhyIn}
    (hws : ∀ x ∈ ws, takesLast x = false) (hw : takesLast w = true) :
    Leg cfg c (ws ++ [w]) { c with state := .endRead } (List.replicate (ws.length + 1) BusOut.listen) []
      (strobedWords (ws ++ [w])) := by
  have hl := (leg_reading (cfg := cfg) hs hd hws).append (leg_readCycle (cfg := cfg) hs hd w)
  rw [hw] at hl
  have hwords : strobedWords (ws ++ [w]) = strobedWords ws ++ strobedWords [w] := List.filterMap_append
  rw [List.replicate_succ', hwords]
  simpa using hl

/-- A register write of the client from `SELECT_OP` on: the first word may come there (41_controller.md R205, R212). -/
theorem leg_regWords (hs : c.state = .selectOp) (hd : c.dlycnt = 0#8) (hp : c.regWritePath = true) (ha : c.autoTxn = false)
    {ws : List (PortIn × PhyIn)} {w : PortIn × PhyIn} (hws : ∀ x ∈ ws, offersLast x = false) (hw : offersLast w = true) :
    Leg cfg c (ws ++ [w]) (c.enter .endWrite cfg.endwDly) ((ws ++ [w]).map fun x => BusOut.regWord x.1)
      (offeredWords (ws ++ [w])) [] := by
  have hg := (gate_iff c).2 hd
  have htick (x : PortIn × PhyIn) : c.tick cfg x.1 x.2
      = if x.1.wdataValid then (if x.1.wdata.last then c.enter .endWrite cfg.endwDly else { c with state := .writeReg }) else c := by
    unfold Ctl.regWritePath at hp
    rw [tick_selectOp hs hd, Ctl.tickSelectOp]
    cases hr : caRead c.ca <;> simp_all
  have hcycle (x : PortIn × PhyIn) : Leg cfg c [x] (c.tick cfg x.1 x.2) [BusOut.regWord x.1] (offeredWord x.1).toList [] :=
    leg_wordCycle (by simp [hs]) (by simp [hs]) (by simp [Ctl.portOut, hs, hg, hp, ha]) rfl (by simp [Ctl.bus, hs, hp, ha])
  induction ws with
  | nil =>
    simp only [offersLast, Bool.and_eq_true] at hw
    have hl := hcycle w
    rw [htick, if_pos hw.1, if_pos hw.2] at hl
    simpa using hl
  | cons x ws ih =>
    obtain ⟨hx, hws⟩ := List.forall_mem_cons.1 hws
    have hl := hcycle x
    rw [htick] at hl
    cases hv : x.1.wdataValid with
    | false =>
      rw [hv] at hl
      simpa using hl.append (ih hws)
    | true =>
      have hlast : x.1.wdata.last = false := by simpa [offersLast, hv] using hx
      rw [hv, hlast] at hl
      have hrest := leg_stream (cfg := cfg) (c := { c with state := .writeReg }) (f := BusOut.regWord) (.inr rfl) hd (fun _ => rfl) hws hw
      simpa [Ctl.enter] using hl.append hrest

/-- The end of a write (41_controller.md R214, R222). -/
theorem leg_writeEnd (hf : LoadsFit cfg) (hs : c.state = .endWrite) (hd : c.dlycnt = BitVec.ofNat 8 cfg.txLatency)
    {post : List (PortIn × PhyIn)} (hlen : post.length = cfg.txLatency + 2) :
    Leg cfg c post (Ctl.tickEndRead { c with state := .endRead, dlycnt := 0#8 }) (writeEnd cfg) [] [] := by
  obtain ⟨cnt, a, b, rfl, hcnt⟩ : ∃ cnt a b, post = cnt ++ ([a] ++ [b]) ∧ cnt.length = cfg.txLatency := by
    have hrest : (post.drop cfg.txLatency).length = 2 := by simp [hlen]
    match hdrop : post.drop cfg.txLatency, hrest with
    | [a, b], _ => exact ⟨post.take cfg.txLatency, a, b, by rw [List.singleton_append, ← hdrop, List.take_append_drop], by simp [hlen]⟩
  have hpark (d : BitVec 8) (mp : PortIn) : Ctl.bus cfg { c with dlycnt := d } mp = BusOut.park := by simp [Ctl.bus, hs]
  have hcount := leg_countdown (cfg := cfg) (c := c) (b := BusOut.park) (is := cnt) (by simp [hs]) (by rw [hd, hcnt])
    (by rw [hcnt]; exact hf.endw) (fun d mp _ => hpark d mp)
  have hopen : Leg cfg { c with dlycnt := 0#8 } [a] { c with state := .endRead, dlycnt := 0#8 } [BusOut.park] [] [] :=
    leg_silentCycle (by simp [hs]) (noWord_of_silentState (by simp [silentState, hs]) _)
      (by rw [tick_of_dlycnt rfl]; simp [Ctl.tickOpen, hs]) (hpark _ _)
  have hend : Leg cfg { c with state := .endRead, dlycnt := 0#8 } [b] (Ctl.tickEndRead { c with state := .endRead, dlycnt := 0#8 })
      [BusOut.idle] [] [] :=
    leg_silentCycle nofun (noWord_of_silentState (by simp [silentState]) _) (tick_of_dlycnt rfl _ _ _) rfl
  have hleg := hcount.append (hopen.append hend)
  rw [hcnt] at hleg
  rw [writeEnd, List.replicate_succ', List.append_assoc]
  exact hleg

end Data

/-! ## Whole transactions, from the launch on -/

section Transactions

variable {cfg : Cfg} {c : Ctl} {pre ws post : List (PortIn × PhyIn)} {m w e : PortIn × PhyIn}

theorem tickEndRead_of_client (h : c.autoTxn = false) : c.tickEndRead = { c with state := .idle } := by simp [Ctl.tickEndRead, h]

/-- A memory write (41_controller.md R229, R235). -/
theorem leg_memWr (hwf : cfg.wf = true) (hs : c.state = .caWord0) (hd : c.dlycnt = 0#8) (ha : c.autoTxn = false)
    (hread : caRead c.ca = false) (hreg : caReg c.ca = false) (hm : pre[4 + cfg.selDly]? = some m)
    (hlen : pre.length = 2 + cfg.lat (longLatency cfg m.2)) (hws : ∀ x ∈ ws, offersLast x = false) (hw : offersLast w = true)
    (hpost : post.length = cfg.txLatency + 2) :
    Leg cfg c (pre ++ ((ws ++ [w]) ++ post)) { c with state := .idle, dlycnt := 0#8 }
      (caCycles c.ca ++ List.replicate (cfg.lat (longLatency cfg m.2) - 1) (BusOut.drive 0#16)
        ++ (ws ++ [w]).map (fun x => BusOut.memWord x.1) ++ writeEnd cfg) (offeredWords (ws ++ [w])) [] := by
  have hf := loadsFit_of_wf hwf
  have hload := wlat_toNat hwf m.2
  have hoff := fixedOffset_eq hwf
  have hsel := selDly_eq cfg
  have hdata : dataState c = .write := by simp [dataState, hread]
  have hopening := leg_opening hf hs hd (by simp [Ctl.regWritePath, hreg]) hm (by simp only [delayLoad, hread]; simp; omega)
  rw [hdata] at hopening
  have hwords := leg_stream (cfg := cfg) (c := { c with state := .write, dlycnt := 0#8 }) (f := BusOut.memWord) (.inl rfl) rfl
    (fun _ => rfl) hws hw
  have hend := leg_writeEnd (cfg := cfg) (c := Ctl.enter { c with state := .write, dlycnt := 0#8 } .endWrite cfg.endwDly)
    (post := post) hf rfl rfl hpost
  rw [tickEndRead_of_client (by exact ha)] at hend
  have hleg := hopening.append (hwords.append hend)
  have hbus : cfg.lat (longLatency cfg m.2) - 1 = (pre.length - 4) + 1 := by omega
  rw [hbus, List.replicate_succ]
  simpa [delayBus, hread, Ctl.enter] using hleg

/-- A register write of the client (41_controller.md R231, R237). -/
theorem leg_regWr (hwf : cfg.wf = true) (hs : c.state = .caWord0) (hd : c.dlycnt = 0#8) (ha : c.autoTxn = false)
    (hp : c.regWritePath = true) (hlen : pre.length = 3) (hws : ∀ x ∈ ws, offersLast x = false) (hw : offersLast w = true)
    (hpost : post.length = cfg.txLatency + 2) :
    Leg cfg c (pre ++ ((ws ++ [w]) ++ post)) { c with state := .idle, dlycnt := 0#8 }
      (caCycles c.ca ++ (ws ++ [w]).map (fun x => BusOut.regWord x.1) ++ writeEnd cfg) (offeredWords (ws ++ [w])) [] := by
  have hwords := leg_regWords (cfg := cfg) (c := { c with state := .selectOp }) rfl hd hp ha hws hw
  have hend := leg_writeEnd (cfg := cfg) (c := Ctl.enter { c with state := .selectOp } .endWrite cfg.endwDly) (post := post)
    (loadsFit_of_wf hwf) rfl rfl hpost
  rw [tickEndRead_of_client (by exact ha)] at hend
  have hleg := (leg_packet cfg hs hd hlen).append (hwords.append hend)
  simpa [Ctl.enter] using hleg

/-- A read up to its data (41_controller.md R230). -/
theorem leg_readOpening (hwf : cfg.wf = true) (hs : c.state = .caWord0) (hd : c.dlycnt = 0#8) (hread : caRead c.ca = true)
    (hm : pre[4 + cfg.selDly]? = some m) (hlen : pre.length = 2 + cfg.lat (longLatency cfg m.2) + cfg.txLatency + cfg.rxLatency) :
    Leg cfg c pre { c with state := .read, dlycnt := 0#8 }
      (caCycles c.ca ++ BusOut.drive 0#16 :: List.replicate (pre.length - 4) BusOut.listen) [] [] := by
  have hload := rlat_toNat hwf m.2
  have hoff := fixedOffset_eq hwf
  have hsel := selDly_eq cfg
  have hopening := leg_opening (loadsFit_of_wf hwf) hs hd (by simp [Ctl.regWritePath, hread]) hm
    (by simp only [delayLoad, hread]; simp; omega)
  rwa [show dataState c = .read by simp [dataState, hread], show delayBus c = BusOut.listen by simp [delayBus, hread]] at hopening

/-- A read (41_controller.md R230, R236, R238). -/
theorem leg_readBurst (hwf : cfg.wf = true) (hs : c.state = .caWord0) (hd : c.dlycnt = 0#8) (ha : c.autoTxn = false)
    (hread : caRead c.ca = true) (hm : pre[4 + cfg.selDly]? = some m)
    (hlen : pre.length = 2 + cfg.lat (longLatency cfg m.2) + cfg.txLatency + cfg.rxLatency) (hws : ∀ x ∈ ws, takesLast x = false)
    (hw : takesLast w = true) :
    Leg cfg c (pre ++ ((ws ++ [w]) ++ [e])) { c with state := .idle, dlycnt := 0#8 }
      (caCycles c.ca ++ BusOut.drive 0#16 :: List.replicate
        (cfg.lat (longLatency cfg m.2) + cfg.txLatency + cfg.rxLatency + ws.length - 1) BusOut.listen ++ [BusOut.idle])
      [] (strobedWords (ws ++ [w])) := by
  have hopening := leg_readOpening hwf hs hd hread hm hlen
  have hwords := leg_read (cfg := cfg) (c := { c with state := .read, dlycnt := 0#8 }) rfl rfl hws hw
  have hend : Leg cfg { c with state := .endRead, dlycnt := 0#8 } [e] { c with state := .idle, dlycnt := 0#8 } [BusOut.idle] [] [] :=
    leg_silentCycle nofun (noWord_of_silentState (by simp [silentState]) _)
      (by rw [tick_of_dlycnt rfl]; exact tickEndRead_of_client ha) rfl
  have hleg := hopening.append (hwords.append hend)
  have hbus : cfg.lat (longLatency cfg m.2) + cfg.txLatency + cfg.rxLatency + ws.length - 1 = (pre.length - 4) + (ws.length + 1) := by
    have := (List.getElem?_eq_some_iff.1 hm).1
    omega
  rw [hbus, List.replicate_add]
  simpa only [List.nil_append, List.append_nil, List.append_assoc, List.cons_append] using hleg

end Transactions

end Sys2Proof.Proofs
end

section
/-! Proofs about the transactions of the data port (41_controller.md R235 to R238): the launch, then a leg of the Controller back to
`IDLE`, is the whole transaction. -/

namespace Sys2Proof.Proofs

open Sys2Proof Sys2Proof.Machine Sys2Proof.Safety Sys2Proof.Laws

/-! ## A leg of the Controller as a run of CORE -/

theorem dpOut_data (cfg : Cfg) {s : CoreState} (i : Inputs) (hb : s.rs.busy = false) (hr : s.xb.regSelect = false) :
    s.dpOut cfg i = s.mpOut i := by
  obtain ⟨hs, hd, -⟩ := (busy_eq_false_iff s.rs).1 hb
  have hv : (s.rs.port cfg).cmdValid = false := by simp [Rs.port, hs]
  simp [CoreState.dpOut, xbToData, CoreState.sel, CoreState.lockout, hr, hd, hv]

theorem handedByData_eq (os : List Obs) : handedByData os = os.filterMap fun o => handedWord o.inp.dp o.out.dp := rfl

theorem takenByData_eq (os : List Obs) : takenByData os = os.filterMap fun o => takenWord o.inp.dp o.out.dp := rfl

/-- Where the data port is silent, no word passes. -/
theorem noWord_passes {os : List Obs} (h : ∀ o ∈ os, NoWord o.out.dp) : handedByData os = [] ∧ takenByData os = [] := by
  rw [handedByData_eq, takenByData_eq]
  exact ⟨List.filterMap_eq_nil_iff.2 fun o ho => handedWord_of_noWord (h o ho) _,
    List.filterMap_eq_nil_iff.2 fun o ho => takenWord_of_noWord (h o ho) _⟩

section Run

variable {cfg : Cfg} {s : CoreState} {is : List Inputs}

/-- What crosses the data port of a transaction in flight crosses the Controller's. -/
theorem coreObs_ports (hq : ∀ i ∈ is, quiet i = true) (hb : s.rs.busy = false) (hr : s.xb.regSelect = false)
    (hf : InFlight cfg s.ctl (dataInputs is)) :
    (coreObs cfg s is).map (fun o => (o.inp.dp, o.out.dp)) = ctlPorts cfg s.ctl (dataInputs is) := by
  induction is generalizing s with
  | nil => rfl
  | cons i is ih =>
    rw [dataInputs_cons] at hf
    obtain ⟨hi, hf⟩ := hf
    obtain ⟨hqi, hq⟩ := List.forall_mem_cons.1 hq
    rw [coreObs, tick_data cfg hqi hb hr hi, List.map_cons,
      ih (s := { s with ctl := s.ctl.tick cfg i.dp i.phy }) hq hb hr hf]
    simp [ctlPorts, CoreState.outputs, dpOut_data cfg i hb hr, CoreState.mpOut]

/-- A leg of the Controller, with the data port connected and RegisterSpace at rest, is a run of CORE. -/
theorem coreRun_leg {c' : Ctl} {bs : List BusOut} {h : List WItem} {t : List HalfWord} (hq : ∀ i ∈ is, quiet i = true)
    (hb : s.rs.busy = false) (hr : s.xb.regSelect = false) (hl : Leg cfg s.ctl (dataInputs is) c' bs h t) :
    coreRun cfg s is = { s with ctl := c' } ∧ busOf (coreObs cfg s is) = bs ∧ handedByData (coreObs cfg s is) = h ∧
      takenByData (coreObs cfg s is) = t := by
  obtain ⟨hrun, hbus⟩ := coreRun_data cfg s is hq hb hr hl.inFlight
  have hports := coreObs_ports hq hb hr hl.inFlight
  refine ⟨by rw [hrun, hl.run], hbus.trans hl.bus, ?_, ?_⟩
  · rw [handedByData_eq, ← hl.handed, ← hports, List.filterMap_map]
    rfl
  · rw [takenByData_eq, ← hl.taken, ← hports, List.filterMap_map]
    rfl

end Run

/-! ## The launch cycle -/

theorem dataReady_iff (s : State) :
    dataReady s = true ↔ s.core.ctl.state = .idle ∧ s.core.ctl.dlycnt = 0#8 ∧ s.core.ctl.cfgPending = false ∧
      s.core.rs.busy = false ∧ s.core.xb.regSelect = false := by
  simp [dataReady, idleController, gate_iff, and_assoc]

theorem quiet_iff (i : Inputs) : quiet i = true ↔ i.reset = false ∧ i.csr.we = false := by simp [quiet]

/-- The machine with a data command presented. -/
def presentCmd (s : State) (cmd : Cmd) : State := { s with req := some (.cmd cmd.toWord) }

/-- The machine one cycle after a data command was presented. -/
def launched (s : State) (cmd : Cmd) : State := (presentCmd s cmd).clock

section Launch

variable {s : State} {cmd : Cmd} {c : Inputs} {rest : List Inputs}

theorem inputs_presenting (hs : s.sched = c :: rest) :
    (presentCmd s cmd).inputs
      = { c with phy := s.phyIn, dp := { c.dp with cmdValid := true, cmd := cmd } } := by
  have hphy : (presentCmd s cmd).phyIn = s.phyIn := rfl
  rw [State.inputs, hphy]
  simp [presentCmd, State.scheduled, hs, Inputs.present]

/-- A CORE that can accept a data command launches the one presented, once the PHY is locked (41_controller.md R200). -/
theorem advance_launch {cfg : Cfg} {k : CoreState} {i : Inputs} (hs : k.ctl.state = .idle) (hd : k.ctl.dlycnt = 0#8)
    (hp : k.ctl.cfgPending = false) (hb : k.rs.busy = false) (hr : k.xb.regSelect = false) (hq : quiet i = true)
    (hlock : i.phy.pllLocked = true) (hv : i.dp.cmdValid = true) :
    k.tick cfg i = { k with ctl := k.ctl.launch (caOf i.dp.cmd) false } ∧ (k.dpOut cfg i).cmdReady = true := by
  obtain ⟨hreset, hcsr⟩ := (quiet_iff i).1 hq
  obtain ⟨hstart, hdone, -⟩ := (busy_eq_false_iff k.rs).1 hb
  have hready : (k.mpOut i).cmdReady = true := mpOut_cmdReady_iff.2 ⟨hs, (gate_iff _).2 hd, hlock, hp⟩
  have hxb : k.xb.tick k.lockout (k.mpOut i).cmdReady (k.rs.port cfg).cmdValid = k.xb := by
    simp [Xb.tick, CoreState.lockout, hdone, hready, hr, Rs.port, hstart]
  refine ⟨?_, by rw [dpOut_data cfg i hb hr, hready]⟩
  rw [tick_of_not_reset _ _ _ hreset, CoreState.advance, mpIn_data cfg i hb hr, hxb, rsTick_idle hb _ hcsr, tick_idle hs hd]
  simp [Ctl.tickIdle, hlock, hp, hv]

/-- The launch cycle of a data-port transaction: the bus is idle, and no word passes. -/
theorem launched_eq (hready : dataReady s = true) (hs : s.sched = c :: rest) (hq : quiet c = true)
    (hlock : s.phyIn.pllLocked = true) :
    ∃ o, launched s cmd =
        { s with
          core := { s.core with ctl := s.core.ctl.launch (caOf cmd) false }
          device := s.device.map fun d => d.tick s.cfg s.cycle BusOut.idle
          sched := rest, req := none, cycle := s.cycle + 1, trace := s.trace ++ [o] } ∧
      o.out.bus = BusOut.idle ∧ handedByData [o] = [] ∧ takenByData [o] = [] := by
  obtain ⟨hidle, hd, hp, hb, hr⟩ := (dataReady_iff s).1 hready
  have hin := inputs_presenting (cmd := cmd) hs
  obtain ⟨htick, hacc⟩ := advance_launch (cfg := s.cfg) (i := (presentCmd s cmd).inputs) hidle hd hp hb hr
    (by rw [hin]; exact hq) (by rw [hin]; exact hlock) (by rw [hin])
  have hcmd : (presentCmd s cmd).inputs.dp.cmd = cmd := by rw [hin]
  rw [hcmd] at htick
  have hbus : (presentCmd s cmd).outputs.bus = BusOut.idle := bus_of_resting (.inl hidle)
  have hreq : (presentCmd s cmd).reqAfter = none := by
    exact if_pos hacc
  have hnoWord : NoWord (presentCmd s cmd).outputs.dp := by
    simp only [State.outputs, CoreState.outputs]
    rw [dpOut_data (s := (presentCmd s cmd).core) _ _ hb hr]
    exact noWord_of_silentState (.inl hidle) _
  refine ⟨{ inp := (presentCmd s cmd).inputs, out := (presentCmd s cmd).outputs }, ?_, hbus, noWord_passes (by simpa using hnoWord)⟩
  · have hcore : (presentCmd s cmd).core.tick s.cfg (presentCmd s cmd).inputs
        = { s.core with ctl := s.core.ctl.launch (caOf cmd) false } := htick
    have hsched : (presentCmd s cmd).sched = c :: rest := hs
    rw [launched, State.clock, hbus, hreq, hsched]
    simp only [List.tail_cons]
    rw [← hcore]
    rfl

end Launch

/-! ## The inputs applied after the launch -/

theorem applied_take {m n : Nat} (h : m ≤ n) (s : State) : (applied n s).take m = applied m s := by
  obtain ⟨k, rfl⟩ := Nat.exists_eq_add_of_le h
  rw [applied_add, List.take_left' (applied_length m s)]

/-- The machine after a run, field by field. -/
theorem cycles_eq_of_core {n : Nat} {s : State} {k : CoreState} (h : (cycles n s).core = k) :
    cycles n s =
      { cfg := s.cfg, core := k
        device := s.device.map fun d => deviceAfter s.cfg s.cycle d (busOf (coreObs s.cfg s.core (applied n s)))
        sched := s.sched.drop n, req := (cycles n s).req, cycle := s.cycle + n
        trace := s.trace ++ coreObs s.cfg s.core (applied n s) } := by
  rw [← h, ← cycles_device, ← cycles_trace, ← cycles_cycle, ← cycles_sched, ← cycles_cfg n s]

/-- The PHY's inputs of each applied cycle are those of the machine then. -/
theorem applied_getElem_phy {k n : Nat} (h : k < n) (s : State) :
    ∃ i, (applied n s)[k]? = some i ∧ i.phy = (cycles k s).phyIn := by
  obtain ⟨j, rfl⟩ := Nat.exists_eq_add_of_lt h
  refine ⟨(cycles k s).inputs, ?_, present_phy _ _⟩
  rw [Nat.add_assoc, applied_add, List.getElem?_append_right (by simp)]
  simp [applied]

section Applied

variable {s : State} {is rest : List Inputs}

/-- The scheduled clients are applied as they are, whatever the PHY answers. -/
theorem applied_clients (hs : s.sched = is ++ rest) (hr : s.req = none) :
    (dataInputs (applied is.length s)).map Prod.fst = is.map Inputs.dp ∧
      ((∀ i ∈ is, quiet i = true) → ∀ a ∈ applied is.length s, quiet a = true) := by
  have hsame := applied_of_sched is hs hr
  generalize applied is.length s = as at hsame
  clear hs
  induction hsame with
  | nil => exact ⟨rfl, fun _ => List.forall_mem_nil _⟩
  | cons hia _ ih =>
    obtain ⟨p, rfl⟩ := hia
    obtain ⟨hdp, hquiet⟩ := ih
    refine ⟨by simpa using hdp, fun hq => ?_⟩
    obtain ⟨hqi, hq⟩ := List.forall_mem_cons.1 hq
    exact List.forall_mem_cons.2 ⟨hqi, hquiet hq⟩

end Applied

/-! ## A transaction from a leg -/

/-- A data-port transaction can start in the coming cycle, and no reset and no CSR write disturbs it over the cycles `is` after that
one. -/
structure Starts (s : State) (c : Inputs) (is rest : List Inputs) : Prop where
  ready : dataReady s = true
  sched : s.sched = c :: (is ++ rest)
  quiet : ∀ i ∈ c :: is, quiet i = true
  locked : s.phyIn.pllLocked = true

/-- The schedule of a transaction, cut at its data. -/
theorem starts_of_sched {s : State} {c w : Inputs} {pre ws post rest : List Inputs} (hready : dataReady s = true)
    (hs : s.sched = c :: (pre ++ ws ++ w :: (post ++ rest))) (hq : ∀ i ∈ c :: (pre ++ ws ++ w :: post), quiet i = true)
    (hl : s.phyIn.pllLocked = true) : Starts s c (pre ++ (ws ++ [w] ++ post)) rest :=
  ⟨hready, by rw [hs]; simp, by simpa using hq, hl⟩

theorem Starts.launched_eq {s : State} {c : Inputs} {is rest : List Inputs} (h : Starts s c is rest) (cmd : Cmd) :
    ∃ o, launched s cmd =
        { s with
          core := { s.core with ctl := s.core.ctl.launch (caOf cmd) false }
          device := s.device.map fun d => d.tick s.cfg s.cycle BusOut.idle
          sched := is ++ rest, req := none, cycle := s.cycle + 1, trace := s.trace ++ [o] } ∧
      o.out.bus = BusOut.idle ∧ handedByData [o] = [] ∧ takenByData [o] = [] :=
  Proofs.launched_eq h.ready h.sched (List.forall_mem_cons.1 h.quiet).1 h.locked

/-- The inputs applied after the launch are quiet too. -/
theorem Starts.applied_quiet {s : State} {c : Inputs} {is rest : List Inputs} (h : Starts s c is rest) (cmd : Cmd) :
    ∀ a ∈ applied is.length (launched s cmd), Safety.quiet a = true := by
  obtain ⟨o, hlaunch, -⟩ := h.launched_eq cmd
  exact (applied_clients (rest := rest) (by rw [hlaunch]) (by rw [hlaunch])).2 (List.forall_mem_cons.1 h.quiet).2

/-- The transaction of a command is the launch and a leg back to `IDLE`. -/
theorem transact_of_leg {s : State} {cmd : Cmd} {c : Inputs} {is rest : List Inputs} {c' : Ctl} {bs : List BusOut} {h : List WItem}
    {t : List HalfWord} (hstart : Starts s c is rest)
    (hl : Leg s.cfg (s.core.ctl.launch (caOf cmd) false) (dataInputs (applied is.length (launched s cmd))) c' bs h t)
    (hidle : c'.state = .idle) :
    ∃ obs,
      s.transact cmd =
        { s with
          core := { s.core with ctl := c' }
          device := s.device.map fun d => deviceAfter s.cfg s.cycle d (busOf obs)
          sched := rest, req := none, cycle := s.cycle + (is.length + 1), trace := s.trace ++ obs } ∧
      busOf obs = BusOut.idle :: bs ∧ handedByData obs = h ∧ takenByData obs = t := by
  obtain ⟨-, -, -, hb, hr⟩ := (dataReady_iff s).1 hstart.ready
  obtain ⟨o, hlaunch, hobus, hohand, hotake⟩ := hstart.launched_eq cmd
  have hquiet := hstart.applied_quiet cmd
  generalize hu : launched s cmd = u at hl hlaunch hquiet
  have hcfg : u.cfg = s.cfg := by rw [hlaunch]
  have hcore : u.core = { s.core with ctl := s.core.ctl.launch (caOf cmd) false } := by rw [hlaunch]
  have hsched : u.sched = is ++ rest := by rw [hlaunch]
  have hreq : u.req = none := by rw [hlaunch]
  rw [← show u.core.ctl = s.core.ctl.launch (caOf cmd) false by rw [hcore], ← hcfg] at hl
  have hbu : u.core.rs.busy = false := by rw [hcore]; exact hb
  have hru : u.core.xb.regSelect = false := by rw [hcore]; exact hr
  obtain ⟨hrun, hbus, hhand, htake⟩ := coreRun_leg hquiet hbu hru hl
  have hend : (cycles is.length u).core = { s.core with ctl := c' } := by rw [cycles_core, hrun, hcore]
  have hbusy (k : Nat) (hk : k < is.length) : (cycles k u).core.ctl.state ≠ .idle := by
    rw [cycles_core, ← applied_take hk.le]
    exact inFlight_of_coreRun _ _ _ hquiet hbu hru hl.inFlight (by simpa using hk)
  have hwhile : s.transact cmd = cycles is.length u := by
    have hcycles : runWhile State.transacting s.horizon (presentCmd s cmd) = cycles (is.length + 1) (presentCmd s cmd) := by
      refine runWhile_eq_cycles (fun k hk => ?_) ?_ (by simp [State.horizon, hstart.sched])
      · cases k with
        | zero => rfl
        | succ k =>
          have hne := hbusy k (by omega)
          rw [cycles_succ, show (presentCmd s cmd).clock = u from hu]
          simp [State.transacting, hne]
      · rw [cycles_succ, show (presentCmd s cmd).clock = u from hu]
        simp [State.transacting, cycles_req_none, hreq, hend, hidle]
    calc s.transact cmd = cycles (is.length + 1) (presentCmd s cmd) := hcycles
      _ = cycles is.length u := by rw [cycles_succ, show (presentCmd s cmd).clock = u from hu]
  refine ⟨o :: coreObs u.cfg u.core (applied is.length u), ?_, ?_, ?_, ?_⟩
  · have hobs : busOf (o :: coreObs u.cfg u.core (applied is.length u))
        = BusOut.idle :: busOf (coreObs u.cfg u.core (applied is.length u)) := by rw [← hobus]; rfl
    rw [hwhile, cycles_eq_of_core hend, cycles_req_none _ hreq, hsched, List.drop_left, hobs, hcfg, hcore]
    simp only [hlaunch, Option.map_map, List.append_assoc, List.singleton_append, Nat.add_assoc, Nat.add_comm 1]
    rfl
  · rw [busOf, List.map_cons, hobus, ← busOf, hbus]
  · rw [← List.singleton_append, handedByData_append, hohand, hhand, List.nil_append]
  · rw [← List.singleton_append, takenByData_append, hotake, htake, List.nil_append]

/-! ## The transactions, by the inputs applied after the launch -/

section Schedule

variable {is : List Inputs}

theorem offeredWords_dataInputs (is : List Inputs) : offeredWords (dataInputs is) = offeredIn is := by
  rw [offeredWords, dataInputs, List.filterMap_map]
  rfl

theorem strobedWords_dataInputs (is : List Inputs) : strobedWords (dataInputs is) = strobedIn is := by
  rw [strobedWords, dataInputs, List.filterMap_map]
  rfl

theorem map_dataInputs (f : PortIn → BusOut) (is : List Inputs) : (dataInputs is).map (fun x => f x.1) = is.map fun i => f i.dp := by
  rw [dataInputs, List.map_map]
  rfl

theorem forall_offersLast (h : ∀ i ∈ is, lastWord i = false) : ∀ x ∈ dataInputs is, offersLast x = false :=
  List.forall_mem_map.2 h

theorem forall_takesLast (h : ∀ i ∈ is, lastRead i = false) : ∀ x ∈ dataInputs is, takesLast x = false :=
  List.forall_mem_map.2 h

theorem dataInputs_getElem? {k : Nat} {m : Inputs} (h : is[k]? = some m) : (dataInputs is)[k]? = some (m.dp, m.phy) := by
  simp [dataInputs, h]

end Schedule

section Commands

variable {s : State} {cmd : Cmd} {c : Inputs} {is rest pre ws post : List Inputs} {m w e : Inputs}

/-- A transaction from the leg over its applied cycles: those before its data, its data cycles, and those after. -/
theorem transact_of_dataLeg {bs : List BusOut} {hd : List WItem} {tk : List HalfWord} (hstart : Starts s c is rest)
    (happ : applied is.length (launched s cmd) = pre ++ (ws ++ [w] ++ post))
    (hleg : Leg s.cfg (s.core.ctl.launch (caOf cmd) false)
      (dataInputs pre ++ (dataInputs ws ++ [(w.dp, w.phy)] ++ dataInputs post))
      { s.core.ctl.launch (caOf cmd) false with state := .idle, dlycnt := 0#8 } bs hd tk) :
    ∃ obs,
      s.transact cmd =
        { afterTransaction s cmd rest (pre.length + ws.length + post.length + 2) obs with
          device := s.device.map fun d => deviceAfter s.cfg s.cycle d (busOf obs) } ∧
      busOf obs = BusOut.idle :: bs ∧ handedByData obs = hd ∧ takenByData obs = tk := by
  have hsplit : dataInputs (applied is.length (launched s cmd))
      = dataInputs pre ++ (dataInputs ws ++ [(w.dp, w.phy)] ++ dataInputs post) := by rw [happ]; simp
  have hlen : is.length + 1 = pre.length + ws.length + post.length + 2 := by
    have := congrArg List.length happ
    simp at this
    omega
  rw [← hsplit] at hleg
  obtain ⟨obs, hexec, hrest⟩ := transact_of_leg hstart hleg rfl
  rw [hlen] at hexec
  exact ⟨obs, hexec, hrest⟩

theorem dataInputs_concat (ws : List Inputs) (w : Inputs) : dataInputs ws ++ [(w.dp, w.phy)] = dataInputs (ws ++ [w]) := by simp

/-- A memory write (41_controller.md R229, R235), whatever stands behind the PHY: the data cycles applied are `ws ++ [w]`, and the
latency indicator is sampled in `m`. -/
theorem transact_memWr (hwf : s.cfg.wf = true) (hstart : Starts s c is rest) (hwrite : cmd.we = true) (hmem : cmd.aspace = false)
    (happ : applied is.length (launched s cmd) = pre ++ (ws ++ [w] ++ post)) (hm : pre[4 + s.cfg.selDly]? = some m)
    (hpre : pre.length = 2 + s.cfg.lat (longLatency s.cfg m.phy)) (hws : ∀ i ∈ ws, lastWord i = false) (hw : lastWord w = true)
    (hpost : post.length = s.cfg.txLatency + 2) :
    ∃ obs,
      s.transact cmd =
        { afterTransaction s cmd rest (s.cfg.lat (longLatency s.cfg m.phy) + ws.length + s.cfg.txLatency + 6) obs with
          device := s.device.map fun d => deviceAfter s.cfg s.cycle d (busOf obs) } ∧
      busOf obs = memWrBus s.cfg (longLatency s.cfg m.phy) (caOf cmd) (ws ++ [w]) ∧
      handedByData obs = offeredIn (ws ++ [w]) ∧ takenByData obs = [] := by
  obtain ⟨-, hd, -, -, -⟩ := (dataReady_iff s).1 hstart.ready
  have hleg := leg_memWr (c := s.core.ctl.launch (caOf cmd) false) (pre := dataInputs pre) (ws := dataInputs ws) (w := (w.dp, w.phy))
    (post := dataInputs post) hwf rfl hd rfl (by simp [hwrite]) (by simp [hmem]) (dataInputs_getElem? hm)
    (by rw [dataInputs_length, hpre]) (forall_offersLast hws) hw (by rw [dataInputs_length, hpost])
  obtain ⟨obs, hexec, hbus, hhand, htake⟩ := transact_of_dataLeg hstart happ hleg
  have hcycles : pre.length + ws.length + post.length + 2
      = s.cfg.lat (longLatency s.cfg m.phy) + ws.length + s.cfg.txLatency + 6 := by omega
  rw [hcycles] at hexec
  rw [dataInputs_concat, map_dataInputs] at hbus
  rw [dataInputs_concat, offeredWords_dataInputs] at hhand
  exact ⟨obs, hexec, hbus, hhand, htake⟩

/-- A register write (41_controller.md R231, R237), whatever stands behind the PHY. -/
theorem transact_regWr (hwf : s.cfg.wf = true) (hstart : Starts s c is rest) (hwrite : cmd.we = true) (hreg : cmd.aspace = true)
    (happ : applied is.length (launched s cmd) = pre ++ (ws ++ [w] ++ post)) (hpre : pre.length = 3)
    (hws : ∀ i ∈ ws, lastWord i = false) (hw : lastWord w = true) (hpost : post.length = s.cfg.txLatency + 2) :
    ∃ obs,
      s.transact cmd =
        { afterTransaction s cmd rest (ws.length + s.cfg.txLatency + 7) obs with
          device := s.device.map fun d => deviceAfter s.cfg s.cycle d (busOf obs) } ∧
      busOf obs = regWrBus s.cfg (caOf cmd) (ws ++ [w]) ∧ handedByData obs = offeredIn (ws ++ [w]) ∧ takenByData obs = [] := by
  obtain ⟨-, hd, -, -, -⟩ := (dataReady_iff s).1 hstart.ready
  have hleg := leg_regWr (c := s.core.ctl.launch (caOf cmd) false) (pre := dataInputs pre) (ws := dataInputs ws) (w := (w.dp, w.phy))
    (post := dataInputs post) hwf rfl hd rfl (by simp [Ctl.regWritePath, hwrite, hreg]) (by rw [dataInputs_length, hpre])
    (forall_offersLast hws) hw (by rw [dataInputs_length, hpost])
  obtain ⟨obs, hexec, hbus, hhand, htake⟩ := transact_of_dataLeg hstart happ hleg
  have hcycles : pre.length + ws.length + post.length + 2 = ws.length + s.cfg.txLatency + 7 := by omega
  rw [hcycles] at hexec
  rw [dataInputs_concat, map_dataInputs] at hbus
  rw [dataInputs_concat, offeredWords_dataInputs] at hhand
  exact ⟨obs, hexec, hbus, hhand, htake⟩

/-- A read (41_controller.md R230, R236, R238), whatever stands behind the PHY: the data cycles applied are `ws ++ [w]`, and the
latency indicator is sampled in `m`. -/
theorem transact_read (hwf : s.cfg.wf = true) (hstart : Starts s c is rest) (hread : cmd.we = false)
    (happ : applied is.length (launched s cmd) = pre ++ (ws ++ [w] ++ [e])) (hm : pre[4 + s.cfg.selDly]? = some m)
    (hpre : pre.length = 2 + s.cfg.lat (longLatency s.cfg m.phy) + s.cfg.txLatency + s.cfg.rxLatency)
    (hws : ∀ i ∈ ws, lastRead i = false) (hw : lastRead w = true) :
    ∃ obs,
      s.transact cmd =
        { afterTransaction s cmd rest
            (s.cfg.lat (longLatency s.cfg m.phy) + s.cfg.txLatency + s.cfg.rxLatency + ws.length + 5) obs with
          device := s.device.map fun d => deviceAfter s.cfg s.cycle d (busOf obs) } ∧
      busOf obs = readBus (caOf cmd)
        (s.cfg.lat (longLatency s.cfg m.phy) + s.cfg.txLatency + s.cfg.rxLatency + ws.length - 1) ++ [BusOut.idle] ∧
      takenByData obs = strobedIn (ws ++ [w]) ∧ handedByData obs = [] := by
  obtain ⟨-, hd, -, -, -⟩ := (dataReady_iff s).1 hstart.ready
  have hleg := leg_readBurst (c := s.core.ctl.launch (caOf cmd) false) (pre := dataInputs pre) (ws := dataInputs ws) (w := (w.dp, w.phy))
    (e := (e.dp, e.phy)) hwf rfl hd rfl (by simp [hread]) (dataInputs_getElem? hm)
    (by rw [dataInputs_length, hpre]) (forall_takesLast hws) hw
  obtain ⟨obs, hexec, hbus, hhand, htake⟩ := transact_of_dataLeg (post := [e]) hstart happ hleg
  have hcycles : pre.length + ws.length + [e].length + 2
      = s.cfg.lat (longLatency s.cfg m.phy) + s.cfg.txLatency + s.cfg.rxLatency + ws.length + 5 := by
    rw [List.length_singleton]
    omega
  rw [hcycles] at hexec
  rw [dataInputs_length] at hbus
  rw [dataInputs_concat, strobedWords_dataInputs] at htake
  exact ⟨obs, hexec, hbus, htake, hhand⟩

end Commands

/-! ## With nothing behind the PHY the schedule is applied as it is -/

section NoDevice

variable {s : State} {cmd : Cmd} {c : Inputs} {is rest : List Inputs}

theorem phyIn_locked_of_none (hs : s.sched = c :: rest) (hd : s.device = none) (hl : c.phy.pllLocked = true) :
    s.phyIn.pllLocked = true := by
  rw [phyIn_of_none hs hd, hl]

theorem applied_launched_of_none (hstart : Starts s c is rest) (hd : s.device = none) : applied is.length (launched s cmd) = is := by
  obtain ⟨o, hlaunch, -⟩ := hstart.launched_eq cmd
  exact applied_of_none (rest := rest) is (by rw [hlaunch]) (by rw [hlaunch]) (by rw [hlaunch, hd]; rfl)

theorem afterTransaction_of_none (hd : s.device = none) (n : Nat) (obs : List Obs) (f : Device → Device) :
    { afterTransaction s cmd rest n obs with device := s.device.map f } = afterTransaction s cmd rest n obs := by
  rw [hd, Option.map_none, ← hd]
  rfl

end NoDevice

/-- Settles O36: `transact_memWr`, the applied inputs being the scheduled ones. -/
theorem memWrCompletes : Obligations.MemWrCompletes := by
  intro s burst addr c m w pre ws post rest long hwf hready hdev hs hq hlock hm hlong hpre hws hw hpost
  subst hlong
  have hstart := starts_of_sched hready hs hq (phyIn_locked_of_none hs hdev hlock)
  obtain ⟨obs, hexec, hbus, hhand, htake⟩ :=
    transact_memWr (cmd := { we := true, aspace := false, burst := burst, addr := addr }) hwf hstart rfl rfl
      (applied_launched_of_none hstart hdev) hm hpre hws hw hpost
  replace hexec := hexec.trans (afterTransaction_of_none hdev _ _ _)
  exact ⟨obs, congrArg _ hexec, hbus, hhand, htake⟩

/-- Settles O37: `transact_read`, the applied inputs being the scheduled ones. -/
theorem readsComplete : Obligations.ReadsComplete := by
  intro s burst addr c m w e pre ws rest long reg hwf hready hdev hs hq hlock hm hlong hpre hws hw
  subst hlong
  have hstart := starts_of_sched (post := [e]) hready hs (by simpa using hq) (phyIn_locked_of_none hs hdev hlock)
  obtain ⟨obs, hexec, hbus, htake, hhand⟩ :=
    transact_read (cmd := { we := false, aspace := reg, burst := burst, addr := addr }) hwf hstart rfl
      (applied_launched_of_none hstart hdev) hm hpre hws hw
  replace hexec := hexec.trans (afterTransaction_of_none hdev _ _ _)
  refine ⟨obs, ?_, hbus, htake, hhand⟩
  cases reg <;> exact congrArg _ hexec

/-! ## With any device the clients' part of the schedule is applied -/

/-- The same clients in each cycle, the PHY aside. -/
def SameClients (as is : List Inputs) : Prop := as.map Inputs.dp = is.map Inputs.dp

section SameClients

variable {as is js : List Inputs}

theorem SameClients.length (h : SameClients as is) : as.length = is.length := by
  simpa using congrArg List.length h

theorem SameClients.map_eq {α : Type} (h : SameClients as is) (f : PortIn → α) :
    as.map (fun i => f i.dp) = is.map fun i => f i.dp := by
  have hf := congrArg (List.map f) h
  rwa [List.map_map, List.map_map] at hf

theorem SameClients.forall (h : SameClients as is) {p : PortIn → Prop} (hp : ∀ i ∈ is, p i.dp) : ∀ a ∈ as, p a.dp :=
  List.forall_mem_map.1 (h ▸ List.forall_mem_map.2 hp)

theorem SameClients.offeredIn (h : SameClients as is) : offeredIn as = offeredIn is := by
  have hmap (l : List Inputs) : Safety.offeredIn l = (l.map Inputs.dp).filterMap offeredWord := by
    rw [List.filterMap_map]
    rfl
  rw [hmap, hmap, h]

theorem SameClients.append {bs : List Inputs} (h : SameClients as is) (h' : SameClients bs js) :
    SameClients (as ++ bs) (is ++ js) := by
  rw [SameClients, List.map_append, List.map_append, h, h']

theorem sameClients_append (h : SameClients as (is ++ js)) :
    ∃ as₁ as₂, as = as₁ ++ as₂ ∧ SameClients as₁ is ∧ SameClients as₂ js := by
  unfold SameClients at h
  rw [List.map_append] at h
  exact List.map_eq_append_iff.1 h

theorem sameClients_singleton {i : Inputs} (h : SameClients as [i]) : ∃ a, as = [a] ∧ a.dp = i.dp := by
  unfold SameClients at h
  rw [List.map_singleton] at h
  simpa [and_comm] using h

end SameClients

/-- The applied cycles of a transaction: those before its data, its data cycles, and those after. -/
theorem applied_launched_split {s : State} {c w : Inputs} {pre ws post rest : List Inputs} (cmd : Cmd)
    (hstart : Starts s c (pre ++ (ws ++ [w] ++ post)) rest) :
    ∃ pre' ws' w' post',
      applied (pre ++ (ws ++ [w] ++ post)).length (launched s cmd) = pre' ++ (ws' ++ [w'] ++ post') ∧
      SameClients pre' pre ∧ SameClients ws' ws ∧ w'.dp = w.dp ∧ SameClients post' post := by
  obtain ⟨o, hlaunch, -⟩ := hstart.launched_eq cmd
  obtain ⟨hdp, -⟩ := applied_clients (s := launched s cmd) (is := pre ++ (ws ++ [w] ++ post)) (rest := rest) (by rw [hlaunch])
    (by rw [hlaunch])
  have hsame : SameClients (applied (pre ++ (ws ++ [w] ++ post)).length (launched s cmd)) (pre ++ (ws ++ [w] ++ post)) := by
    rw [SameClients, ← hdp, dataInputs, List.map_map]
    rfl
  obtain ⟨pre', as, happ, hpre, has⟩ := sameClients_append hsame
  obtain ⟨ds, post', rfl, hds, hpost⟩ := sameClients_append has
  obtain ⟨ws', last, rfl, hws, hlast⟩ := sameClients_append hds
  obtain ⟨w', rfl, hw'⟩ := sameClients_singleton hlast
  exact ⟨pre', ws', w', post', happ, hpre, hws, hw', hpost⟩

theorem phyIn_locked_of_lockedFor {s : State} {c : Inputs} {is rest : List Inputs} (hs : s.sched = c :: rest)
    (hl : lockedFor s (c :: is) = true) : s.phyIn.pllLocked = true := by
  unfold lockedFor at hl
  unfold State.phyIn
  split at hl
  next hd =>
    rw [hd]
    simp only [List.all_cons, Bool.and_eq_true] at hl
    simpa [State.scheduled, hs] using hl.1
  next d hd =>
    rw [hd]
    simp only [Device.phyIn]
    split <;> exact hl

/-- A register write, with any device or none: its leg does not look at the PHY. -/
theorem transact_regWr_of_sched {s : State} {cmd : Cmd} {c w : Inputs} {pre ws post rest : List Inputs} (hwf : s.cfg.wf = true)
    (hstart : Starts s c (pre ++ (ws ++ [w] ++ post)) rest) (hwrite : cmd.we = true) (hreg : cmd.aspace = true) (hpre : pre.length = 3)
    (hws : ∀ i ∈ ws, lastWord i = false) (hw : lastWord w = true) (hpost : post.length = s.cfg.txLatency + 2) :
    ∃ obs,
      s.transact cmd =
        { afterTransaction s cmd rest (ws.length + s.cfg.txLatency + 7) obs with
          device := s.device.map fun d => deviceAfter s.cfg s.cycle d (busOf obs) } ∧
      busOf obs = regWrBus s.cfg (caOf cmd) (ws ++ [w]) ∧ handedByData obs = offeredIn (ws ++ [w]) ∧ takenByData obs = [] := by
  obtain ⟨pre', ws', w', post', happ, hpre', hws', hw', hpost'⟩ := applied_launched_split cmd hstart
  have hwords : SameClients (ws' ++ [w']) (ws ++ [w]) := hws'.append (congrArg (fun x => [x]) hw')
  obtain ⟨obs, hexec, hbus, hhand, htake⟩ :=
    transact_regWr hwf hstart hwrite hreg happ (hpre'.length.trans hpre)
      (hws'.forall (p := fun p => (p.wdataValid && p.wdata.last) = false) hws)
      (by rw [lastWord, hw']; exact hw) (hpost'.length.trans hpost)
  rw [hws'.length] at hexec
  refine ⟨obs, hexec, ?_, hhand.trans hwords.offeredIn, htake⟩
  rw [hbus, regWrBus, regWrBus, hwords.map_eq]

/-- Settles O38: `transact_regWr_of_sched`, the PHY being locked in the launch cycle. -/
theorem regWrCompletes : Obligations.RegWrCompletes := by
  intro s burst addr c w pre ws post rest hwf hready hs hq hlock hpre hws hw hpost
  have hstart := starts_of_sched hready hs hq (phyIn_locked_of_lockedFor hs hlock)
  obtain ⟨obs, hexec, hrest⟩ :=
    transact_regWr_of_sched (cmd := { we := true, aspace := true, burst := burst, addr := addr }) hwf hstart rfl rfl hpre hws hw hpost
  exact ⟨obs, congrArg _ hexec, hrest⟩

end Sys2Proof.Proofs
end

section
/-! Proofs about the Controller's own configuration writes (41_controller.md R240): during start-up the Controller sees RegisterSpace
alone, writes CFG.CR0 to one die after the other, and no client takes part. -/

namespace Sys2Proof.Proofs

open Sys2Proof Sys2Proof.Machine Sys2Proof.Safety Sys2Proof.Laws

/-! ## The leg of a configuration write -/

section Leg

variable {cfg : Cfg} {c c' : Ctl} {mp : PortIn} {phy : PhyIn}

/-- The Controller's own write, from the launch on. -/
theorem leg_autoWr (hwf : cfg.wf = true) (hs : c.state = .caWord0) (hd : c.dlycnt = 0#8) (ha : c.autoTxn = true)
    (hread : caRead c.ca = false) (hreg : caReg c.ca = true) {is : List (PortIn × PhyIn)} (hlen : is.length = 6 + cfg.txLatency) :
    Leg cfg c is (Ctl.tickEndRead { c with state := .endRead, dlycnt := 0#8 })
      (caCycles c.ca ++ BusOut.drive cfg.cr0 :: writeEnd cfg) [] [] := by
  obtain ⟨pk, l, post, rfl, hpk, hpost⟩ :
      ∃ pk l post, is = pk ++ ([l] ++ post) ∧ pk.length = 3 ∧ post.length = cfg.txLatency + 2 := by
    match is, hlen with
    | i :: j :: k :: l :: post, hlen => exact ⟨[i, j, k], l, post, rfl, rfl, by simp at hlen; omega⟩
    | [], hlen | [_], hlen | [_, _], hlen | [_, _, _], hlen => simp at hlen; omega
  have hword : Leg cfg { c with state := .selectOp } [l] (Ctl.enter { c with state := .selectOp } .endWrite cfg.endwDly)
      [BusOut.drive cfg.cr0] [] [] :=
    leg_silentCycle nofun (by simp [NoWord, Ctl.portOut, ha])
      (by rw [tick_selectOp (c := { c with state := .selectOp }) rfl hd]; simp [Ctl.tickSelectOp, hread, hreg, ha])
      (by simp [Ctl.bus, Ctl.regWritePath, hread, hreg, ha])
  have hend := leg_writeEnd (cfg := cfg) (c := Ctl.enter { c with state := .selectOp } .endWrite cfg.endwDly) (post := post)
    (loadsFit_of_wf hwf) rfl rfl hpost
  exact (leg_packet cfg hs hd hpk).append (hword.append hend)

/-- Only the end of a transaction, which goes to `IDLE`, writes `cfg_pending`. -/
theorem CtlMove.cfgPending_of_ne_idle (hm : CtlMove cfg c mp phy c') (h : c'.state ≠ .idle) : c'.cfgPending = c.cfgPending := by
  cases hm with
  | finish => exact absurd rfl h
  | count | wait | autocfg | command | follow => rfl

end Leg

/-! ## Start-up: the Controller's writes are pending -/

/-- CORE while the Controller's writes are pending: RegisterSpace has at most put up its command. -/
structure StartingUp (k : CoreState) : Prop where
  pending : k.ctl.cfgPending = true
  setup : k.rs.setupDone = false
  waits : k.rs.state = .start ∨ k.rs.state = .waitCmd
  noStrobe : k.rs.strobePending = false

/-- CORE starts up in each of the cycles. -/
def StartingUpIn (cfg : Cfg) : CoreState → List Inputs → Prop
  | _, [] => True
  | k, i :: is => StartingUp k ∧ StartingUpIn cfg (k.tick cfg i) is

section StartUp

variable {cfg : Cfg} {k : CoreState} {i : Inputs} {is js : List Inputs}

theorem startingUpIn_append : StartingUpIn cfg k (is ++ js) ↔ StartingUpIn cfg k is ∧ StartingUpIn cfg (coreRun cfg k is) js := by
  induction is generalizing k with
  | nil => simp [StartingUpIn, coreRun]
  | cons i is ih => simp only [List.cons_append, StartingUpIn, coreRun, ih, and_assoc]

theorem StartingUp.sel (h : StartingUp k) : k.sel = true := by simp [CoreState.sel, CoreState.lockout, h.setup]

theorem StartingUp.mpIn (h : StartingUp k) : k.mpIn cfg i = k.rs.port cfg := by simp [CoreState.mpIn, h.sel]

/-- The data client sees nothing (42_crossbar.md R264). -/
theorem StartingUp.dpOut (h : StartingUp k) : (k.dpOut cfg i).cmdReady = false ∧ NoWord (k.dpOut cfg i) := by
  simp [CoreState.dpOut, xbToData, h.sel, NoWord]

/-- A cycle of the start-up: the Controller moves, and RegisterSpace's command waits for it (43_registerspace.md R304, R305). -/
theorem StartingUp.tick (h : StartingUp k) (hr : i.reset = false) :
    k.tick cfg i =
      { ctl := k.ctl.tick cfg (k.rs.port cfg) i.phy, xb := { regSelect := true }, rs := { k.rs with state := .waitCmd } } := by
  obtain ⟨hpending, hsetup, hwaits, hstrobe⟩ := h
  have hready : (k.mpOut i).cmdReady = false := by simp [CoreState.mpOut, Ctl.portOut, hpending]
  have hrs : k.rs.tick (k.rpOut i) i.csr = { k.rs with state := .waitCmd } := by
    have hbusy : k.rs.busy = true := by simp [Rs.busy, hsetup]
    have hcmd : (k.rpOut i).cmdReady = false := by simp [CoreState.rpOut, xbToReg, hready]
    rw [Rs.tick, hbusy, Bool.not_true, Bool.and_false, if_neg Bool.false_ne_true]
    rcases hwaits with hs | hs
    · simp [Rs.advance, hs, hsetup, ← hstrobe]
    · have hkept : { k.rs with state := .waitCmd } = k.rs := by rw [← hs]
      simp [Rs.advance, hs, hcmd, hkept]
  have hxb : k.xb.tick k.lockout (k.mpOut i).cmdReady (k.rs.port cfg).cmdValid = { regSelect := true } := by
    simp [Xb.tick, CoreState.lockout, hsetup]
  rw [tick_of_not_reset _ _ _ hr, CoreState.advance, StartingUp.mpIn ⟨hpending, hsetup, hwaits, hstrobe⟩, hrs, hxb]

/-- No word passes the data port. -/
theorem startingUpIn_noWord (h : StartingUpIn cfg k is) :
    handedByData (coreObs cfg k is) = [] ∧ takenByData (coreObs cfg k is) = [] := by
  have hsilent : ∀ o ∈ coreObs cfg k is, NoWord o.out.dp := by
    induction is generalizing k with
    | nil => simp [coreObs]
    | cons i is ih =>
      obtain ⟨hk, hrest⟩ := h
      rw [coreObs]
      exact List.forall_mem_cons.2 ⟨hk.dpOut.2, ih hrest⟩
  exact noWord_passes hsilent

/-- What the Controller sees while RegisterSpace waits. -/
def waitingInputs (cfg : Cfg) (r : Rs) (is : List Inputs) : List (PortIn × PhyIn) := is.map fun i => (r.port cfg, i.phy)

/-- With RegisterSpace's command waiting, a stretch in flight is a run of the Controller alone. -/
theorem coreRun_startingUp (h : StartingUp k) (hw : k.rs.state = .waitCmd) (hx : k.xb.regSelect = true)
    (hr : ∀ i ∈ is, i.reset = false) (hf : InFlight cfg k.ctl (waitingInputs cfg k.rs is)) :
    coreRun cfg k is = { k with ctl := ctlRun cfg k.ctl (waitingInputs cfg k.rs is) } ∧
      busOf (coreObs cfg k is) = ctlBus cfg k.ctl (waitingInputs cfg k.rs is) ∧ StartingUpIn cfg k is := by
  induction is generalizing k with
  | nil => exact ⟨rfl, rfl, trivial⟩
  | cons i is ih =>
    obtain ⟨hri, hr⟩ := List.forall_mem_cons.1 hr
    obtain ⟨-, hf⟩ := hf
    have htick : k.tick cfg i = { k with ctl := k.ctl.tick cfg (k.rs.port cfg) i.phy } := by
      rw [h.tick hri, ← hw, ← hx]
    have hbus : (k.outputs cfg i).bus = k.ctl.bus cfg (k.rs.port cfg) := by rw [CoreState.outputs, h.mpIn]
    cases is with
    | nil => exact ⟨htick, congrArg (fun b => [b]) hbus, h, trivial⟩
    | cons j js =>
      have hpending : (k.ctl.tick cfg (k.rs.port cfg) i.phy).cfgPending = true :=
        ((tick_move cfg k.ctl (k.rs.port cfg) i.phy).cfgPending_of_ne_idle hf.1).trans h.pending
      obtain ⟨hrun, hbuses, hstart⟩ := ih (k := { k with ctl := k.ctl.tick cfg (k.rs.port cfg) i.phy })
        ⟨hpending, h.setup, h.waits, h.noStrobe⟩ hw hx hr hf
      refine ⟨?_, ?_, h, ?_⟩
      · rw [coreRun, htick, hrun]
        rfl
      · rw [coreObs, htick, busOf, List.map_cons, ← busOf, hbuses, hbus]
        rfl
      · rw [htick]
        exact hstart

/-! ## One die, all dies -/

/-- One configuration write: the launch and its leg. -/
theorem coreRun_autocfgDie (hwf : cfg.wf = true) (h : StartingUp k) (hs : k.ctl.state = .idle) (hd : k.ctl.dlycnt = 0#8)
    (hlen : is.length = 7 + cfg.txLatency) (hr : ∀ i ∈ is, i.reset = false) (hl : ∀ i ∈ is, i.phy.pllLocked = true) :
    coreRun cfg k is =
        { ctl := Ctl.tickEndRead { k.ctl with state := .endRead, dlycnt := 0#8, ca := caAutocfg cfg k.ctl.cfgDie, autoTxn := true }
          xb := { regSelect := true }, rs := { k.rs with state := .waitCmd } } ∧
      busOf (coreObs cfg k is) = fullWriteBus cfg (caAutocfg cfg k.ctl.cfgDie) cfg.cr0 ∧ StartingUpIn cfg k is := by
  cases is with
  | nil =>
    rw [List.length_nil] at hlen
    omega
  | cons i is =>
    obtain ⟨hri, hr⟩ := List.forall_mem_cons.1 hr
    obtain ⟨hli, -⟩ := List.forall_mem_cons.1 hl
    have hlaunch : k.ctl.tick cfg (k.rs.port cfg) i.phy = k.ctl.launch (caAutocfg cfg k.ctl.cfgDie) true := by
      simp [tick_idle hs hd, Ctl.tickIdle, hli, h.pending]
    have htick := h.tick (cfg := cfg) hri
    rw [hlaunch] at htick
    have hleg := leg_autoWr (cfg := cfg) (c := k.ctl.launch (caAutocfg cfg k.ctl.cfgDie) true)
      (is := waitingInputs cfg { k.rs with state := .waitCmd } is) hwf rfl hd rfl (by simp [caAutocfg, regCmd])
      (by simp [caAutocfg, regCmd]) (by simp [waitingInputs] at hlen ⊢; omega)
    obtain ⟨hrun, hbus, hstart⟩ := coreRun_startingUp (is := is) (k := k.tick cfg i) (cfg := cfg)
      (by rw [htick]; exact ⟨h.pending, h.setup, .inr rfl, h.noStrobe⟩) (by rw [htick]) (by rw [htick]) hr
      (by rw [htick]; exact hleg.inFlight)
    rw [htick] at hrun hbus
    refine ⟨?_, ?_, h, hstart⟩
    · rw [coreRun, htick, hrun, hleg.run]
      rfl
    · have hidle : (k.outputs cfg i).bus = BusOut.idle := bus_of_resting (.inl hs)
      rw [coreObs, busOf, List.map_cons, ← busOf, htick, hbus, hleg.bus, hidle, fullWriteBus, wordWriteBus]
      simp

/-- The Controller after its writes (41_controller.md R240). -/
def ctlConfigured (cfg : Cfg) : Ctl :=
  { state := .idle, dlycnt := 0#8, ca := caAutocfg cfg 0#1, autoTxn := true, cfgPending := false, cfgDie := 0#1 }

/-- The last die ends the writes; another leaves the next one to do. -/
theorem coreRun_autocfg (hwf : cfg.wf = true) (h : StartingUp k) (hs : k.ctl.state = .idle) (hd : k.ctl.dlycnt = 0#8)
    (hlen : is.length = (k.ctl.cfgDie.toNat + 1) * (7 + cfg.txLatency)) (hr : ∀ i ∈ is, i.reset = false)
    (hl : ∀ i ∈ is, i.phy.pllLocked = true) :
    coreRun cfg k is = { ctl := ctlConfigured cfg, xb := { regSelect := true }, rs := { k.rs with state := .waitCmd } } ∧
      busOf (coreObs cfg k is) = (diesDown k.ctl.cfgDie.toNat).flatMap
        (fun n => fullWriteBus cfg (caAutocfg cfg (BitVec.ofNat 1 n)) cfg.cr0) ∧
      StartingUpIn cfg k is := by
  obtain hdie | hdie : k.ctl.cfgDie = 0#1 ∨ k.ctl.cfgDie = 1#1 := by
    rcases BitVec.eq_zero_or_eq_one k.ctl.cfgDie with h | h <;> simp [h]
  · obtain ⟨hrun, hbus, hstart⟩ := coreRun_autocfgDie hwf h hs hd (by rw [hlen, hdie]; simp) hr hl
    rw [hdie] at hrun hbus ⊢
    refine ⟨?_, ?_, hstart⟩
    · rw [hrun]
      simp [Ctl.tickEndRead, hdie, ctlConfigured]
    · rw [hbus]
      simp [diesDown]
  · obtain ⟨as, bs, rfl, ha, hb⟩ :
        ∃ as bs, is = as ++ bs ∧ as.length = 7 + cfg.txLatency ∧ bs.length = 7 + cfg.txLatency := by
      have htwo : is.length = (7 + cfg.txLatency) + (7 + cfg.txLatency) := by rw [hlen, hdie]; simp; omega
      exact ⟨is.take (7 + cfg.txLatency), is.drop (7 + cfg.txLatency), (List.take_append_drop _ _).symm, by simp [htwo], by simp [htwo]⟩
    obtain ⟨hra, hrb⟩ := List.forall_mem_append.1 hr
    obtain ⟨hla, hlb⟩ := List.forall_mem_append.1 hl
    obtain ⟨hrun, hbus, hstart⟩ := coreRun_autocfgDie hwf h hs hd ha hra hla
    rw [hdie] at hrun hbus
    have hnext : Ctl.tickEndRead { k.ctl with state := .endRead, dlycnt := 0#8, ca := caAutocfg cfg 1#1, autoTxn := true }
        = { k.ctl with state := .idle, dlycnt := 0#8, ca := caAutocfg cfg 1#1, autoTxn := true, cfgDie := 0#1 } := by
      simp [Ctl.tickEndRead, hdie]
    rw [hnext] at hrun
    obtain ⟨hrun', hbus', hstart'⟩ := coreRun_autocfgDie (k := coreRun cfg k as) (cfg := cfg) hwf
      (by rw [hrun]; exact ⟨h.pending, h.setup, .inr rfl, h.noStrobe⟩) (by rw [hrun]) (by rw [hrun]) hb hrb hlb
    refine ⟨?_, ?_, startingUpIn_append.2 ⟨hstart, hstart'⟩⟩
    · rw [coreRun_append, hrun', hrun]
      simp [Ctl.tickEndRead, ctlConfigured]
    · rw [coreObs_append, busOf_append, hbus, hbus', hrun, hdie]
      simp [diesDown]

end StartUp

/-! ## The machine -/

section Applied

variable {s : State} {i : Inputs} {is rest : List Inputs}

theorem deviceTick_lockAt (cfg : Cfg) (n : Nat) (d : Device) (out : BusOut) : (d.tick cfg n out).lockAt = d.lockAt := by
  have hcycle (b : BusOut) : (d.busCycle cfg n b).1.lockAt = d.lockAt := by
    cases hc : b.cs with
    | false => rw [busCycle_released cfg n d b hc]
    | true =>
      cases hk : b.clkEn with
      | false => rw [busCycle_stopped cfg n d b hc hk]
      | true =>
        rw [busCycle_clocked cfg n d b hc hk]
        rcases takeSlot_cases cfg n (d.draw n b) b with ⟨-, e⟩ | ⟨-, -, -, e⟩ | ⟨-, -, -, -, e⟩ | ⟨-, e⟩ <;> rw [e]
        · exact draw_lockAt n d b
        · unfold Device.writeReg
          (repeat' split) <;> exact draw_lockAt n d b
        · exact draw_lockAt n d b
        · exact draw_lockAt n d b
  exact hcycle _

/-- A PHY locked for the scheduled cycles is locked for the remaining ones. -/
theorem lockedFor_clock (h : lockedFor s (i :: is) = true) : lockedFor s.clock is = true := by
  unfold lockedFor at h ⊢
  cases hd : s.device with
  | none => simp_all
  | some d =>
    simp only [hd, decide_eq_true_eq] at h
    simp only [clock_device, hd, Option.map_some, clock_cycle, deviceTick_lockAt, decide_eq_true_eq]
    omega

/-- The PHY is locked in each applied cycle. -/
theorem applied_locked (hs : s.sched = is ++ rest) (h : lockedFor s is = true) :
    ∀ a ∈ applied is.length s, a.phy.pllLocked = true := by
  induction is generalizing s with
  | nil => exact List.forall_mem_nil _
  | cons i is ih =>
    refine List.forall_mem_cons.2 ⟨?_, ih (by simp [hs]) (lockedFor_clock h)⟩
    rw [State.inputs, present_phy]
    exact phyIn_locked_of_lockedFor hs h

/-- No reset is applied where none is scheduled. -/
theorem applied_noReset (hs : s.sched = is ++ rest) (h : ∀ i ∈ is, i.reset = false) : ∀ a ∈ applied is.length s, a.reset = false := by
  induction is generalizing s with
  | nil => exact List.forall_mem_nil _
  | cons i is ih =>
    obtain ⟨hi, his⟩ := List.forall_mem_cons.1 h
    refine List.forall_mem_cons.2 ⟨?_, ih (by simp [hs]) his⟩
    rw [inputs_reset, State.scheduled, hs]
    exact hi

/-- CORE starts up in each of the coming cycles. -/
theorem startingUpIn_applied {n : Nat} (h : StartingUpIn s.cfg s.core (applied n s)) {j : Nat} (hj : j < n) :
    StartingUp (cycles j s).core := by
  obtain ⟨m, rfl⟩ := Nat.exists_eq_add_of_lt hj
  rw [Nat.add_assoc, applied_add, startingUpIn_append, ← cycles_core, applied] at h
  exact h.2.1

theorem waiting_waiting (r : Option Request) : waiting (waiting r) = waiting r := by
  cases r with
  | none => rfl
  | some r => cases r <;> rfl

theorem reqAfter_of_not_ready (h : s.outputs.dp.cmdReady = false) : s.reqAfter = waiting s.req := by
  unfold State.reqAfter waiting
  split <;> simp_all

/-- A presented command is held back through the start-up, a CSR access is over after one cycle. -/
theorem cycles_req_startingUp {n : Nat} (h : ∀ j, j < n + 1 → StartingUp (cycles j s).core) : (cycles (n + 1) s).req = waiting s.req := by
  induction n with
  | zero => exact reqAfter_of_not_ready (h 0 (by omega)).dpOut.1
  | succ n ih =>
    rw [cycles_succ', clock_req, reqAfter_of_not_ready (h (n + 1) (by omega)).dpOut.1, ih fun j hj => h j (by omega),
      waiting_waiting]

end Applied

/-- Settles O44: the configuration writes are a run of CORE over whatever is applied; the machine stops with the pending flag. -/
theorem ctlAutocfgCompletes : Obligations.CtlAutocfgCompletes := by
  intro s h rest hwf hidle hd hpending hsetup hwaits hstrobe hs hlen hr hl
  obtain ⟨n, hn⟩ : ∃ n, h.length = n + 1 :=
    Nat.exists_eq_succ_of_ne_zero (by rw [hlen]; exact Nat.mul_ne_zero (Nat.succ_ne_zero _) (by omega))
  obtain ⟨hrun, hbus, hstart⟩ := coreRun_autocfg (cfg := s.cfg) (is := applied h.length s) hwf ⟨hpending, hsetup, hwaits, hstrobe⟩ hidle hd
    (by rw [applied_length, hlen]) (applied_noReset hs hr) (applied_locked hs hl)
  rw [← cycles_core] at hrun
  have hcycles (j : Nat) (hj : j < h.length) : StartingUp (cycles j s).core := startingUpIn_applied hstart hj
  have hexec : runWhile (fun t => t.core.ctl.cfgPending) s.horizon s = cycles h.length s :=
    runWhile_eq_cycles (fun j hj => (hcycles j hj).pending) (by rw [hrun]; rfl) (by simp [State.horizon, hs])
  obtain ⟨hhand, htake⟩ := startingUpIn_noWord hstart
  refine ⟨coreObs s.cfg s.core (applied h.length s), ?_, hbus, hhand, htake⟩
  have hreq : (cycles h.length s).req = waiting s.req := by
    rw [hn] at hcycles ⊢
    exact cycles_req_startingUp hcycles
  rw [exec, execCtlAutocfg, hexec, cycles_eq_of_core hrun, hreq, hs, List.drop_left]
  rfl

end Sys2Proof.Proofs
end

section
/-! ENV-REF behind its queues (20_memory.md R101): after a run it is what the records that left the transmit queue made of it, and CORE
samples the answers to the records of so many cycles ago. -/

namespace Sys2Proof.Proofs

open Sys2Proof Sys2Proof.Machine Sys2Proof.Safety Sys2Proof.Laws

/-! ## The device, record by record -/

/-- The device with other queues. -/
def withQueues (d : Device) (t : List BusOut) (r : List BusIn) : Device := { d with txq := t, rxq := r }

/-- The device after the records that reached it, the first of them in cycle `n`; its queues stand still. -/
def devRun (cfg : Cfg) : Nat → Device → List BusOut → Device
  | _, d, [] => d
  | n, d, b :: bs => devRun cfg (n + 1) (d.busCycle cfg n b).1 bs

/-- What the device answered to the records that reached it. -/
def devAnswers (cfg : Cfg) : Nat → Device → List BusOut → List BusIn
  | _, _, [] => []
  | n, d, b :: bs => (d.busCycle cfg n b).2 :: devAnswers cfg (n + 1) (d.busCycle cfg n b).1 bs

section Queues

variable {cfg : Cfg} {n : Nat} {d : Device} {b : BusOut} {bs xs ys : List BusOut} {t : List BusOut} {r : List BusIn}

theorem draw_withQueues : (withQueues d t r).draw n b = withQueues (d.draw n b) t r := by
  by_cases h : d.slot = 0 ∧ b.clkEn = true
  · cases hd : d.draws <;> simp [Device.draw, withQueues, h, hd]
  · simp [Device.draw, withQueues, h]

theorem takeSlot_withQueues : (withQueues d t r).takeSlot cfg n b = withQueues (d.takeSlot cfg n b) t r := by
  unfold Device.takeSlot Device.writeReg
  simp only [apply_ite (withQueues · t r)]
  rfl

/-- A bus cycle does not look at the queues. -/
theorem busCycle_withQueues :
    (withQueues d t r).busCycle cfg n b = (withQueues (d.busCycle cfg n b).1 t r, (d.busCycle cfg n b).2) := by
  cases hc : b.cs with
  | false => rw [busCycle_released cfg n _ b hc, busCycle_released cfg n d b hc]; rfl
  | true =>
    cases hk : b.clkEn with
    | false => rw [busCycle_stopped cfg n _ b hc hk, busCycle_stopped cfg n d b hc hk]; rfl
    | true =>
      rw [busCycle_clocked cfg n _ b hc hk, busCycle_clocked cfg n d b hc hk, draw_withQueues, takeSlot_withQueues]
      rfl

theorem devRun_withQueues : devRun cfg n (withQueues d t r) bs = withQueues (devRun cfg n d bs) t r := by
  induction bs generalizing n d with
  | nil => rfl
  | cons b bs ih => rw [devRun, busCycle_withQueues, ih, devRun]

theorem devAnswers_withQueues : devAnswers cfg n (withQueues d t r) bs = devAnswers cfg n d bs := by
  induction bs generalizing n d with
  | nil => rfl
  | cons b bs ih => rw [devAnswers, busCycle_withQueues, ih, devAnswers]

theorem devRun_append : devRun cfg n d (xs ++ ys) = devRun cfg (n + xs.length) (devRun cfg n d xs) ys := by
  induction xs generalizing n d with
  | nil => rfl
  | cons x xs ih => rw [List.cons_append, devRun, ih, devRun, List.length_cons, Nat.add_right_comm, Nat.add_assoc]

theorem devAnswers_append :
    devAnswers cfg n d (xs ++ ys) = devAnswers cfg n d xs ++ devAnswers cfg (n + xs.length) (devRun cfg n d xs) ys := by
  induction xs generalizing n d with
  | nil => rfl
  | cons x xs ih =>
    rw [List.cons_append, devAnswers, ih, devAnswers, devRun, List.length_cons, List.cons_append, Nat.add_right_comm, Nat.add_assoc]

@[simp] theorem devAnswers_length : (devAnswers cfg n d bs).length = bs.length := by
  induction bs generalizing n d with
  | nil => rfl
  | cons b bs ih => simp [devAnswers, ih]

theorem deviceTick_eq (out : BusOut) :
    d.tick cfg n out = withQueues (d.busCycle cfg n (d.onBus out)).1 (d.txq ++ [out]).tail
      (d.rxq ++ [(d.busCycle cfg n (d.onBus out)).2]).tail := rfl

/-- The device after a run: the first records of queue and outputs have reached it, and their answers stand in the receive queue. -/
theorem deviceAfter_eq :
    deviceAfter cfg n d bs =
      withQueues (devRun cfg n d ((d.txq ++ bs).take bs.length)) ((d.txq ++ bs).drop bs.length)
        ((d.rxq ++ devAnswers cfg n d ((d.txq ++ bs).take bs.length)).drop bs.length) := by
  induction bs generalizing n d with
  | nil => simp [deviceAfter, devRun, devAnswers, withQueues]
  | cons b bs ih =>
    have hq : d.txq ++ b :: bs = d.onBus b :: ((d.txq ++ [b]).tail ++ bs) := by
      rw [← List.cons_append, ← append_eq_onBus_cons, List.append_assoc, List.singleton_append]
    have hr (a : BusIn) (as : List BusIn) (k : Nat) : ((d.rxq ++ [a]).tail ++ as).drop k = (d.rxq ++ a :: as).drop (k + 1) := by
      rw [← List.tail_append_of_ne_nil (by simp), List.append_assoc, List.singleton_append, List.drop_tail]
    rw [deviceAfter, ih, deviceTick_eq, hq, List.length_cons, List.take_succ_cons, List.drop_succ_cons, devRun, devAnswers,
      devRun_withQueues, devAnswers_withQueues, ← hr]
    rfl

/-- CORE samples the answer to the record of `RX_LATENCY` cycles ago. -/
theorem phyIn_deviceAfter (hrec : d.txq ++ bs = xs ++ b :: ys) (hlen : bs.length = xs.length + d.rxq.length)
    (hpos : 1 ≤ d.rxq.length) (k : Nat) :
    ((deviceAfter cfg n d bs).phyIn k).dqIn = ((devRun cfg n d xs).busCycle cfg (n + xs.length) b).2.dqIn ∧
      ((deviceAfter cfg n d bs).phyIn k).rwdsIn = ((devRun cfg n d xs).busCycle cfg (n + xs.length) b).2.rwdsIn := by
  obtain ⟨m, hm⟩ : ∃ m, bs.length - xs.length = m + 1 := ⟨bs.length - xs.length - 1, by omega⟩
  have htake : (d.txq ++ bs).take bs.length = xs ++ b :: ys.take m := by
    rw [hrec, List.take_append, List.take_of_length_le (by omega), hm, List.take_succ_cons]
  have hrx : (deviceAfter cfg n d bs).rxq =
      ((devRun cfg n d xs).busCycle cfg (n + xs.length) b).2 ::
        devAnswers cfg (n + xs.length + 1) ((devRun cfg n d xs).busCycle cfg (n + xs.length) b).1 (ys.take m) := by
    rw [deviceAfter_eq, htake, devAnswers_append]
    simp only [withQueues, ← List.append_assoc]
    rw [List.drop_left' (by simp; omega)]
    rfl
  simp [Device.phyIn, hrx]

end Queues

/-! ## Stretches of records -/

/-- No record is clocked; of a device's transmit queue this is `quietQueue`. -/
def unclocked (bs : List BusOut) : Bool := bs.all fun b => !(b.cs && b.clkEn)

section Stretches

variable {cfg : Cfg} {n : Nat} {d : Device} {b : BusOut} {bs : List BusOut}

/-- Records without a clock change nothing but the slot and the packet. -/
theorem devRun_unclocked (h : unclocked bs = true) : ∃ slot ca, devRun cfg n d bs = { d with slot := slot, ca := ca } := by
  induction bs generalizing n d with
  | nil => exact ⟨d.slot, d.ca, rfl⟩
  | cons b bs ih =>
    simp only [unclocked, List.all_cons, Bool.and_eq_true, Bool.not_eq_true', Bool.and_eq_false_iff] at h
    obtain ⟨hb, hbs⟩ := h
    obtain ⟨slot, ca, hcycle⟩ : ∃ slot ca, (d.busCycle cfg n b).1 = { d with slot := slot, ca := ca } := by
      cases hc : b.cs with
      | false => exact ⟨0, 0#48, by rw [busCycle_released cfg n d b hc]⟩
      | true => exact ⟨d.slot, d.ca, by rw [busCycle_stopped cfg n d b hc (by simpa [hc] using hb)]⟩
    obtain ⟨slot', ca', hrest⟩ := ih (n := n + 1) (d := (d.busCycle cfg n b).1) hbs
    exact ⟨slot', ca', by rw [devRun, hrest, hcycle]⟩

/-- Released after them, the device waits for a packet. -/
theorem devRun_released (h : unclocked bs = true) : devRun cfg n d (bs ++ [BusOut.idle]) = { d with slot := 0, ca := 0#48 } := by
  obtain ⟨slot, ca, hrun⟩ := devRun_unclocked (cfg := cfg) (n := n) (d := d) h
  rw [devRun_append, hrun, devRun, busCycle_released _ _ _ _ rfl]
  rfl

/-- A slot that has no effect on the device. -/
theorem busCycle_of_takeSlot (hc : b.cs = true) (hk : b.clkEn = true) (hs : d.slot ≠ 0) (ht : d.takeSlot cfg n b = d) :
    (d.busCycle cfg n b).1 = { d with slot := d.slot + 1 } := by
  rw [busCycle_clocked cfg n d b hc hk, draw_of_slot_ne_zero hs, ht]

/-- The draw of a transaction. -/
theorem draw_first (hs : d.slot = 0) : ∃ e ds, ∀ b : BusOut, b.clkEn = true → d.draw n b = { d with extra := e, draws := ds } := by
  cases hd : d.draws with
  | nil => exact ⟨Config.latencyDraw n, [], fun b hk => by simp [Device.draw, hs, hk, hd]⟩
  | cons e ds => exact ⟨e, ds, fun b hk => by simp [Device.draw, hs, hk, hd]⟩

/-- The first two records of a packet: the latency is drawn, and two thirds of the packet captured. -/
theorem devRun_packetStart {e : Bool} {ds : List Bool} (hs : d.slot = 0)
    (hdraw : ∀ b : BusOut, b.clkEn = true → d.draw n b = { d with extra := e, draws := ds }) (ca : CaPacket) :
    devRun cfg n d [BusOut.drive (caHi ca), BusOut.drive (caMid ca)] =
      { d with slot := 2, ca := captureCa (captureCa d.ca 0 (caHi ca)) 1 (caMid ca), extra := e, draws := ds } := by
  rw [devRun, busCycle_clocked _ _ _ _ rfl rfl, hdraw _ rfl, devRun, busCycle_clocked _ _ _ _ rfl rfl, draw_of_slot_ne_zero (by simp)]
  simp [devRun, Device.takeSlot, hs, BusOut.sampledDq, BusOut.drive]

/-- The three records of a packet (20_memory.md R104). -/
theorem devRun_packet {e : Bool} {ds : List Bool} (hs : d.slot = 0) (hca : d.ca = 0#48)
    (hdraw : ∀ b : BusOut, b.clkEn = true → d.draw n b = { d with extra := e, draws := ds }) (ca : CaPacket) :
    devRun cfg n d (caCycles ca) = { d with slot := 3, ca := ca, extra := e, draws := ds } := by
  rw [show caCycles ca = [BusOut.drive (caHi ca), BusOut.drive (caMid ca)] ++ [BusOut.drive (caLo ca)] from rfl, devRun_append,
    devRun_packetStart hs hdraw, devRun, busCycle_clocked _ _ _ _ rfl rfl, draw_of_slot_ne_zero (by simp)]
  simp [devRun, Device.takeSlot, BusOut.sampledDq, BusOut.drive, hca, captureCa_packet]

end Stretches

end Sys2Proof.Proofs
end

section
/-! Bursts at ENV-REF (20_memory.md R104): what the slots of a memory write, a register write and a read do to the device, and what it
answers in them. -/

namespace Sys2Proof.Proofs

open Sys2Proof Sys2Proof.Machine Sys2Proof.Safety Sys2Proof.Laws

/-! ## The latency -/

/-- A device configured as the Controller is has the Controller's latency (20_memory.md R105). -/
theorem latency_of_configured {cfg : Cfg} {p : Device} (hwf : cfg.wf = true)
    (hcode : (p.cr0 (p.die cfg)).extractLsb' 4 4 = latCode cfg.il) (hfixed : (p.cr0 (p.die cfg)).getLsbD 3 = cfg.fixed) :
    p.latency cfg = cfg.lat (cfg.fixed || p.extra) := by
  obtain ⟨-, -, -, h3, h7, -, -⟩ := (wf_iff cfg).1 hwf
  rw [Device.latency, Device.two, hcode, hfixed, latencyOfCode_latCode h3 h7, Cfg.lat]
  split <;> simp

theorem three_le_lat {cfg : Cfg} (hwf : cfg.wf = true) (long : Bool) : 3 ≤ cfg.lat long := by
  obtain ⟨-, -, -, h3, -, -, -⟩ := (wf_iff cfg).1 hwf
  unfold Cfg.lat
  split <;> omega

/-! ## Slots without effect -/

section Slots

variable {cfg : Cfg} {n : Nat} {d : Device} {b : BusOut}

/-- Slots that have no effect on the device. -/
theorem devRun_replicate {k : Nat} (hc : b.cs = true) (hk : b.clkEn = true) (hs : d.slot ≠ 0)
    (ht : ∀ j n, j < k → ({ d with slot := d.slot + j } : Device).takeSlot cfg n b = { d with slot := d.slot + j }) :
    devRun cfg n d (List.replicate k b) = { d with slot := d.slot + k } := by
  induction k generalizing n d with
  | zero => rfl
  | succ k ih =>
    have hnext (j m : Nat) : d.slot + (j + 1) = d.slot + 1 + j := by omega
    rw [List.replicate_succ, devRun, busCycle_of_takeSlot hc hk hs (ht 0 n (by omega)), ih (Nat.succ_ne_zero _)]
    · rw [hnext k 0]
    · intro j m hj
      have hslot := ht (j + 1) m (by omega)
      rwa [hnext j 0] at hslot

/-- A read changes nothing. -/
theorem takeSlot_read (h3 : 3 ≤ d.slot) (hr : caRead d.ca = true) : d.takeSlot cfg n b = d := by
  simp [Device.takeSlot, show ¬ d.slot ≤ 2 by omega, hr]

/-- Before its data a memory write changes nothing. -/
theorem takeSlot_latency (h3 : 3 ≤ d.slot) (hr : caRead d.ca = false) (hg : caReg d.ca = false) (hl : d.slot < 2 + d.latency cfg) :
    d.takeSlot cfg n b = d := by
  simp [Device.takeSlot, show ¬ d.slot ≤ 2 by omega, hr, hg, show ¬ 2 + d.latency cfg ≤ d.slot by omega]

/-- A data slot of a memory write stores its half-word. -/
theorem takeSlot_store (h3 : 3 ≤ d.slot) (hr : caRead d.ca = false) (hg : caReg d.ca = false) (hl : 2 + d.latency cfg ≤ d.slot) :
    d.takeSlot cfg n b =
      { d with mem := devWriteMem d.mem (d.die cfg) (d.dataAddr cfg) (b.sampledDq n) (~~~(b.sampledRwds n)) } := by
  simp [Device.takeSlot, show ¬ d.slot ≤ 2 by omega, hr, hg, hl]

/-- Slot 3 of a register write stores its word. -/
theorem takeSlot_register (h3 : d.slot = 3) (hr : caRead d.ca = false) (hg : caReg d.ca = true) :
    d.takeSlot cfg n b = d.writeReg (d.die cfg) (d.ha cfg) (b.sampledDq n) := by
  simp [Device.takeSlot, h3, hr, hg]

/-- Past slot 3 a register write changes nothing. -/
theorem takeSlot_pastRegister (h4 : 4 ≤ d.slot) (hr : caRead d.ca = false) (hg : caReg d.ca = true) : d.takeSlot cfg n b = d := by
  simp [Device.takeSlot, show ¬ d.slot ≤ 2 by omega, hr, hg, show d.slot ≠ 3 by omega]

/-- The slots of a read move the device on. -/
theorem devRun_read {k : Nat} (hc : b.cs = true) (hk : b.clkEn = true) (h3 : 3 ≤ d.slot) (hr : caRead d.ca = true) :
    devRun cfg n d (List.replicate k b) = { d with slot := d.slot + k } :=
  devRun_replicate hc hk (by omega) fun _ _ _ => takeSlot_read (Nat.le_add_right_of_le h3) hr

/-- The latency slots of a memory write. -/
theorem devRun_latency {k : Nat} (hc : b.cs = true) (hk : b.clkEn = true) (h3 : 3 ≤ d.slot) (hr : caRead d.ca = false)
    (hg : caReg d.ca = false) (hl : d.slot + k ≤ 2 + d.latency cfg) :
    devRun cfg n d (List.replicate k b) = { d with slot := d.slot + k } :=
  devRun_replicate hc hk (by omega) fun j _ hj =>
    takeSlot_latency (Nat.le_add_right_of_le h3) hr hg (show d.slot + j < 2 + d.latency cfg by omega)

end Slots

/-! ## Bursts -/

section Bursts

variable {cfg : Cfg}

/-- The addresses of a burst go by the packet and the dies' CR0. -/
theorem burstWrite_congr {d e : Device} (hca : d.ca = e.ca) (ha : d.cr0a = e.cr0a) (hb : d.cr0b = e.cr0b) (i : Nat) (ws : List WItem)
    (m : List Host.Cell) : burstWrite cfg d i ws m = burstWrite cfg e i ws m := by
  have hdie : d.die cfg = e.die cfg := by rw [Device.die, Device.die, hca]
  have haddr (i : Nat) : d.wordAddr cfg i = e.wordAddr cfg i := by
    have hha : d.ha cfg = e.ha cfg := by rw [Device.ha, Device.ha, hca]
    have hcr0 (die : Bool) : d.cr0 die = e.cr0 die := by rw [Device.cr0, Device.cr0, ha, hb]
    rw [Device.wordAddr, Device.wordAddr, hdie, hha, hcr0, hca]
  induction ws generalizing i m with
  | nil => rfl
  | cons w ws ih => rw [burstWrite, burstWrite, ih, hdie, haddr]

theorem burstWrite_of_stored (d : Device) (m : List Host.Cell) (slot i : Nat) (ws : List WItem) (m' : List Host.Cell) :
    burstWrite cfg { d with mem := m, slot := slot } i ws m' = burstWrite cfg d i ws m' :=
  burstWrite_congr (d := { d with mem := m, slot := slot }) (e := d) rfl rfl rfl i ws m'

theorem offeredIn_cons_of_valid {i : Inputs} (h : i.dp.wdataValid = true) (is : List Inputs) :
    offeredIn (i :: is) = i.dp.wdata :: offeredIn is := by
  simp [offeredIn, h]

theorem offeredIn_cons_of_not_valid {i : Inputs} (h : i.dp.wdataValid = false) (is : List Inputs) :
    offeredIn (i :: is) = offeredIn is := by
  simp [offeredIn, h]

/-- The data cycles of a memory write, from word `i` on: each offered word is stored, the others stop the clock. -/
theorem devRun_memWords {n : Nat} {d : Device} {i : Nat} (ws : List Inputs) (hslot : d.slot = 2 + d.latency cfg + i) (h3 : 3 ≤ d.slot)
    (hr : caRead d.ca = false) (hg : caReg d.ca = false) :
    ∃ slot, devRun cfg n d (ws.map fun w => BusOut.memWord w.dp) =
      { d with mem := burstWrite cfg d i (offeredIn ws) d.mem, slot := slot } := by
  induction ws generalizing n d i with
  | nil => exact ⟨d.slot, rfl⟩
  | cons w ws ih =>
    rw [List.map_cons, devRun]
    cases hv : w.dp.wdataValid with
    | false =>
      rw [busCycle_stopped _ _ _ _ rfl hv, offeredIn_cons_of_not_valid hv]
      exact ih hslot h3 hr hg
    | true =>
      have haddr : d.dataAddr cfg = d.wordAddr cfg i := by rw [Device.dataAddr, hslot, Nat.add_sub_cancel_left]
      have hdq : (BusOut.memWord w.dp).sampledDq n = w.dp.wdata.data := by simp [BusOut.sampledDq, BusOut.memWord, hv]
      have hmask : ~~~((BusOut.memWord w.dp).sampledRwds n) = w.dp.wdata.we := by simp [BusOut.sampledRwds, BusOut.memWord, hv]
      rw [busCycle_clocked _ _ _ _ rfl hv, draw_of_slot_ne_zero (by omega), takeSlot_store h3 hr hg (by omega), haddr, hdq, hmask,
        offeredIn_cons_of_valid hv]
      obtain ⟨slot, hrun⟩ := ih (n := n + 1)
        (d := { d with mem := devWriteMem d.mem (d.die cfg) (d.wordAddr cfg i) w.dp.wdata.data w.dp.wdata.we, slot := d.slot + 1 })
        (i := i + 1) (show d.slot + 1 = 2 + d.latency cfg + (i + 1) by omega) (Nat.le_succ_of_le h3) hr hg
      exact ⟨slot, by rw [hrun, burstWrite_of_stored, burstWrite]⟩

/-- Past its word a register write changes nothing. -/
theorem devRun_laterRegWords {n : Nat} {d : Device} (ws : List Inputs) (h4 : 4 ≤ d.slot) (hr : caRead d.ca = false)
    (hg : caReg d.ca = true) : ∃ slot, devRun cfg n d (ws.map fun w => BusOut.regWord w.dp) = { d with slot := slot } := by
  induction ws generalizing n d with
  | nil => exact ⟨d.slot, rfl⟩
  | cons w ws ih =>
    rw [List.map_cons, devRun]
    cases hv : w.dp.wdataValid with
    | false =>
      rw [busCycle_stopped _ _ _ _ rfl hv]
      exact ih h4 hr hg
    | true =>
      rw [busCycle_of_takeSlot rfl hv (by omega) (takeSlot_pastRegister h4 hr hg)]
      exact ih (Nat.le_succ_of_le h4) hr hg

/-- The data cycles of a register write: the first offered word is stored, no other. -/
theorem devRun_regWords {n : Nat} {d : Device} {v : WItem} {vs : List WItem} (ws : List Inputs) (h3 : d.slot = 3)
    (hr : caRead d.ca = false) (hg : caReg d.ca = true) (hv : offeredIn ws = v :: vs) :
    ∃ slot, devRun cfg n d (ws.map fun w => BusOut.regWord w.dp) =
      { d.writeReg (d.die cfg) (d.ha cfg) v.data with slot := slot } := by
  induction ws generalizing n with
  | nil => cases hv
  | cons w ws ih =>
    rw [List.map_cons, devRun]
    cases hw : w.dp.wdataValid with
    | false =>
      rw [offeredIn_cons_of_not_valid hw] at hv
      rw [busCycle_stopped _ _ _ _ rfl hw]
      exact ih hv
    | true =>
      rw [offeredIn_cons_of_valid hw] at hv
      obtain ⟨rfl, -⟩ := List.cons_eq_cons.1 hv
      have hdq : (BusOut.regWord w.dp).sampledDq n = w.dp.wdata.data := by simp [BusOut.sampledDq, BusOut.regWord, hw]
      have hca : (d.writeReg (d.die cfg) (d.ha cfg) w.dp.wdata.data).ca = d.ca := (writeReg_mem_ca _ _ _).2
      rw [busCycle_clocked _ _ _ _ rfl hw, draw_of_slot_ne_zero (by omega), takeSlot_register h3 hr hg, hdq]
      exact devRun_laterRegWords ws (by simp only; omega) (by simp only [hca, hr]) (by simp only [hca, hg])

/-- In a data slot of a read the device answers with its word and the strobe (20_memory.md R104). -/
theorem busCycle_readWord {n : Nat} {d : Device} {b : BusOut} {j : Nat} (hc : b.cs = true) (hk : b.clkEn = true) (h3 : 3 ≤ d.slot)
    (hr : caRead d.ca = true) (hslot : d.slot = 2 + d.latency cfg + j) :
    (d.busCycle cfg n b).2 = { dqIn := d.readAt cfg n (d.wordAddr cfg j), rwdsIn := 0b10#2 } := by
  have haddr : d.dataAddr cfg = d.wordAddr cfg j := by rw [Device.dataAddr, hslot, Nat.add_sub_cancel_left]
  rw [busCycle_clocked _ _ _ _ hc hk, draw_of_slot_ne_zero (by omega)]
  simp [Device.answer, show ¬ d.slot ≤ 2 by omega, hk, hr, show 2 + d.latency cfg ≤ d.slot by omega, haddr]

/-- In the last slot of a packet the device answers with the latency indicator (20_memory.md R104). -/
theorem busCycle_indicator {n : Nat} {d : Device} {b : BusOut} (hc : b.cs = true) (hk : b.clkEn = true) (hs : d.slot = 2) :
    (d.busCycle cfg n b).2.rwdsIn = if d.two cfg then 0b11#2 else 0b00#2 := by
  rw [busCycle_clocked _ _ _ _ hc hk, draw_of_slot_ne_zero (by omega)]
  simp [Device.answer, hs]

end Bursts

end Sys2Proof.Proofs
end

section
/-! Proofs about the transactions of the data port with ENV-REF behind the PHY (20_memory.md R104; 41_controller.md R230, R235 to
R238): the device has seen the bus cycles of the transaction, and CORE its answers. -/

namespace Sys2Proof.Proofs

open Sys2Proof Sys2Proof.Machine Sys2Proof.Safety Sys2Proof.Laws

/-! ## What the device makes of the bus cycles of a transaction -/

theorem deviceReady_iff (s : State) (d : Device) (ca : CaPacket) :
    deviceReady s d ca = true ↔
      d.txq.length = s.cfg.txLatency ∧ d.rxq.length = s.cfg.rxLatency ∧ 1 ≤ s.cfg.rxLatency ∧ quietQueue d = true ∧
        d.lockAt ≤ s.cycle ∧ (d.cr0 ((withPacket d ca).die s.cfg)).extractLsb' 4 4 = latCode s.cfg.il ∧
        (d.cr0 ((withPacket d ca).die s.cfg)).getLsbD 3 = s.cfg.fixed := by
  simp only [deviceReady, Bool.and_eq_true, beq_iff_eq, decide_eq_true_eq, and_assoc]

/-- The device once it has captured a packet and drawn its latency. -/
def addressed (d : Device) (ca : CaPacket) (extra : Bool) (draws : List Bool) : Device :=
  { d with slot := 3, ca := ca, extra := extra, draws := draws }

section Records

variable {cfg : Cfg} {n : Nat} {d : Device} {ca : CaPacket}

/-- Released, the device draws from its list. -/
theorem draw_of_draws {x : Bool} {more : List Bool} (hs : d.slot = 0) (hx : d.draws = x :: more) (b : BusOut) (hk : b.clkEn = true) :
    d.draw n b = { d with extra := x, draws := more } := by
  simp [Device.draw, hs, hk, hx]

/-- Behind a quiet queue, the launch cycle and the packet. -/
theorem devRun_addressed {x : Bool} {more : List Bool} (hq : quietQueue d = true) (hx : d.draws = x :: more) :
    devRun cfg n d (d.txq ++ BusOut.idle :: caCycles ca) = addressed d ca x more := by
  rw [List.append_cons, devRun_append, devRun_released hq]
  exact devRun_packet (d := { d with slot := 0, ca := 0#48 }) rfl rfl (draw_of_draws rfl hx) ca

/-- The latency of the addressed device (20_memory.md R105). -/
theorem latency_addressed {x : Bool} {more : List Bool} (hwf : cfg.wf = true)
    (hcode : (d.cr0 ((withPacket d ca).die cfg)).extractLsb' 4 4 = latCode cfg.il)
    (hfixed : (d.cr0 ((withPacket d ca).die cfg)).getLsbD 3 = cfg.fixed) :
    (addressed d ca x more).latency cfg = cfg.lat (cfg.fixed || x) :=
  latency_of_configured (p := addressed d ca x more) hwf hcode hfixed

theorem unclocked_take {bs : List BusOut} (h : unclocked bs = true) (k : Nat) : unclocked (bs.take k) = true :=
  List.all_eq_true.2 fun b hb => List.all_eq_true.1 h b (List.mem_of_mem_take hb)

theorem unclocked_drop {bs : List BusOut} (h : unclocked bs = true) (k : Nat) : unclocked (bs.drop k) = true :=
  List.all_eq_true.2 fun b hb => List.all_eq_true.1 h b (List.mem_of_mem_drop hb)

theorem unclocked_writeEnd (cfg : Cfg) : unclocked (writeEnd cfg) = true := by
  rw [unclocked, writeEnd, List.all_append, List.all_replicate]
  simp [BusOut.park, BusOut.idle]

/-- After a run whose last records have no clock, and fill the queue, the device is what the records before them made of it, but for
the slot and the packet. -/
theorem deviceAfter_of_unclocked_end {front back : List BusOut} (hlen : d.txq.length ≤ back.length) (hback : unclocked back = true) :
    ∃ slot ca q r, unclocked q = true ∧
      deviceAfter cfg n d (front ++ back) =
        withQueues { devRun cfg n d (d.txq ++ front) with slot := slot, ca := ca } q r := by
  have hsplit : d.txq ++ (front ++ back) = (d.txq ++ front) ++ back := (List.append_assoc _ _ _).symm
  have htake : (d.txq ++ (front ++ back)).take (front ++ back).length
      = (d.txq ++ front) ++ back.take (back.length - d.txq.length) := by
    rw [hsplit, List.take_append, List.take_of_length_le (by simp; omega)]
    congr 2
    simp
    omega
  have hdrop : (d.txq ++ (front ++ back)).drop (front ++ back).length = back.drop (back.length - d.txq.length) := by
    rw [hsplit, List.drop_append, List.drop_of_length_le (by simp; omega), List.nil_append]
    congr 1
    simp
    omega
  obtain ⟨slot, ca, hrun⟩ := devRun_unclocked (cfg := cfg) (n := n + (d.txq ++ front).length) (d := devRun cfg n d (d.txq ++ front))
    (unclocked_take hback (back.length - d.txq.length))
  exact ⟨slot, ca, _, _, unclocked_drop hback _, by rw [deviceAfter_eq, htake, hdrop, devRun_append, hrun]⟩

/-- The records of a memory write up to its last word (20_memory.md R104; 41_controller.md R235). -/
theorem devRun_memWr {x long : Bool} {more : List Bool} {ws : List Inputs} (hq : quietQueue d = true) (hx : d.draws = x :: more)
    (hread : caRead ca = false) (hreg : caReg ca = false) (hlat : (addressed d ca x more).latency cfg = cfg.lat long)
    (h3 : 3 ≤ cfg.lat long) :
    ∃ slot, devRun cfg n d (d.txq ++ BusOut.idle :: (caCycles ca ++ List.replicate (cfg.lat long - 1) (BusOut.drive 0#16)
        ++ ws.map fun w => BusOut.memWord w.dp)) =
      { addressed d ca x more with mem := burstWrite cfg (withPacket d ca) 0 (offeredIn ws) d.mem, slot := slot } := by
  have hrecords : d.txq ++ BusOut.idle :: (caCycles ca ++ List.replicate (cfg.lat long - 1) (BusOut.drive 0#16)
      ++ ws.map fun w => BusOut.memWord w.dp) =
        (d.txq ++ BusOut.idle :: caCycles ca) ++ List.replicate (cfg.lat long - 1) (BusOut.drive 0#16)
          ++ ws.map fun w => BusOut.memWord w.dp := by simp
  have hwait (n : Nat) : devRun cfg n (addressed d ca x more) (List.replicate (cfg.lat long - 1) (BusOut.drive 0#16))
      = { addressed d ca x more with slot := 2 + cfg.lat long } := by
    have hslot : (addressed d ca x more).slot + (cfg.lat long - 1) = 2 + cfg.lat long := by
      simp only [addressed]
      omega
    have hrun := devRun_latency (cfg := cfg) (n := n) (d := addressed d ca x more) (b := BusOut.drive 0#16) (k := cfg.lat long - 1) rfl rfl
      (Nat.le_refl 3) hread hreg (by rw [hslot, hlat])
    rwa [hslot] at hrun
  have hburst : burstWrite cfg { addressed d ca x more with slot := 2 + cfg.lat long } 0 (offeredIn ws) d.mem
      = burstWrite cfg (withPacket d ca) 0 (offeredIn ws) d.mem :=
    burstWrite_congr (d := { addressed d ca x more with slot := 2 + cfg.lat long }) (e := withPacket d ca) rfl rfl rfl _ _ _
  have hfirst : 2 + cfg.lat long = 2 + (addressed d ca x more).latency cfg + 0 := by rw [hlat, Nat.add_zero]
  rw [hrecords, devRun_append, devRun_append, devRun_addressed hq hx, hwait, ← hburst]
  exact devRun_memWords (d := { addressed d ca x more with slot := 2 + cfg.lat long }) ws hfirst (by simp only; omega) hread hreg

/-- The bus cycles of a memory write store its words and change no register. -/
theorem deviceAfter_memWrBus {x long : Bool} {more : List Bool} {ws : List Inputs} (hlen : d.txq.length = cfg.txLatency)
    (hq : quietQueue d = true) (hx : d.draws = x :: more) (hread : caRead ca = false) (hreg : caReg ca = false)
    (hlat : (addressed d ca x more).latency cfg = cfg.lat long) (h3 : 3 ≤ cfg.lat long) :
    ∃ slot ca' q r, unclocked q = true ∧
      deviceAfter cfg n d (memWrBus cfg long ca ws) =
        { d with
          mem := burstWrite cfg (withPacket d ca) 0 (offeredIn ws) d.mem, extra := x, draws := more
          slot := slot, ca := ca', txq := q, rxq := r } := by
  obtain ⟨slot, hwords⟩ := devRun_memWr (n := n) (ws := ws) hq hx hread hreg hlat h3
  obtain ⟨slot', ca', q, r, hquiet, hafter⟩ := deviceAfter_of_unclocked_end (cfg := cfg) (n := n) (d := d)
    (front := BusOut.idle :: (caCycles ca ++ List.replicate (cfg.lat long - 1) (BusOut.drive 0#16) ++ ws.map fun w => BusOut.memWord w.dp))
    (back := writeEnd cfg) (by simp [writeEnd, hlen]; omega) (unclocked_writeEnd cfg)
  rw [hwords] at hafter
  exact ⟨slot', ca', q, r, hquiet, hafter⟩

theorem writeReg_addressed (x : Bool) (more : List Bool) (die : Bool) (ha : HalfAddr) (v : HalfWord) :
    (addressed d ca x more).writeReg die ha v = addressed ((withPacket d ca).writeReg die ha v) ca x more := by
  unfold Device.writeReg
  split
  · cases die <;> rfl
  · rfl

theorem writeReg_id0 (die : Bool) (ha : HalfAddr) (v : HalfWord) : (d.writeReg die ha v).id0 = d.id0 := by
  unfold Device.writeReg
  split
  · cases die <;> rfl
  · rfl

/-- The records of a register write up to its last word (20_memory.md R104; 41_controller.md R237). -/
theorem devRun_regWr {ws : List Inputs} {v : WItem} {vs : List WItem} (hq : quietQueue d = true) (hread : caRead ca = false)
    (hreg : caReg ca = true) (hv : offeredIn ws = v :: vs) :
    ∃ x more slot, devRun cfg n d (d.txq ++ BusOut.idle :: (caCycles ca ++ ws.map fun w => BusOut.regWord w.dp)) =
      { addressed ((withPacket d ca).writeReg ((withPacket d ca).die cfg) ((withPacket d ca).ha cfg) v.data) ca x more with
        slot := slot } := by
  have hrecords : d.txq ++ BusOut.idle :: (caCycles ca ++ ws.map fun w => BusOut.regWord w.dp) =
      (d.txq ++ [BusOut.idle]) ++ caCycles ca ++ ws.map fun w => BusOut.regWord w.dp := by simp
  obtain ⟨x, more, hdraw⟩ := draw_first (n := n + (d.txq ++ [BusOut.idle]).length) (d := { d with slot := 0, ca := 0#48 }) rfl
  have hpacket : devRun cfg (n + (d.txq ++ [BusOut.idle]).length) { d with slot := 0, ca := 0#48 } (caCycles ca)
      = addressed d ca x more := devRun_packet (d := { d with slot := 0, ca := 0#48 }) rfl rfl hdraw ca
  obtain ⟨slot, hwords⟩ := devRun_regWords (cfg := cfg) (n := n + ((d.txq ++ [BusOut.idle]) ++ caCycles ca).length)
    (d := addressed d ca x more) ws rfl hread hreg hv
  refine ⟨x, more, slot, ?_⟩
  rw [hrecords, devRun_append, devRun_append, devRun_released hq, hpacket, hwords, writeReg_addressed]
  rfl

/-- The bus cycles of a register write store its first word in the register of its address (20_memory.md R103). -/
theorem deviceAfter_regWrBus {ws : List Inputs} {v : WItem} {vs : List WItem} (hlen : d.txq.length = cfg.txLatency)
    (hq : quietQueue d = true) (hread : caRead ca = false) (hreg : caReg ca = true) (hv : offeredIn ws = v :: vs) :
    ∃ x more slot ca' q r, unclocked q = true ∧
      deviceAfter cfg n d (regWrBus cfg ca ws) =
        { (withPacket d ca).writeReg ((withPacket d ca).die cfg) ((withPacket d ca).ha cfg) v.data with
          extra := x, draws := more, slot := slot, ca := ca', txq := q, rxq := r } := by
  obtain ⟨x, more, slot, hwords⟩ := devRun_regWr (n := n) (ws := ws) hq hread hreg hv
  obtain ⟨slot', ca', q, r, hquiet, hafter⟩ := deviceAfter_of_unclocked_end (cfg := cfg) (n := n) (d := d)
    (front := BusOut.idle :: (caCycles ca ++ ws.map fun w => BusOut.regWord w.dp)) (back := writeEnd cfg)
    (by simp [writeEnd, hlen]; omega) (unclocked_writeEnd cfg)
  rw [hwords] at hafter
  exact ⟨x, more, slot', ca', q, r, hquiet, hafter⟩

end Records

theorem phyIn_locked_of_device {s : State} {d : Device} (hdev : s.device = some d) (hlock : d.lockAt ≤ s.cycle) :
    s.phyIn.pllLocked = true := by
  unfold State.phyIn
  rw [hdev]
  simp only [Device.phyIn]
  split <;> simpa using hlock

/-- Settles O52: `transact_regWr_of_sched`, the device being fed with its bus cycles. -/
theorem deviceTakesRegisterWord : Obligations.DeviceTakesRegisterWord := by
  intro s d burst addr c w pre ws post rest v vs hwf hready hdev htx hquiet hlock hs hq hpre hws hw hpost hv
  have hstart := starts_of_sched hready hs hq (phyIn_locked_of_device hdev hlock)
  obtain ⟨obs, hexec, hbus, -, -⟩ :=
    transact_regWr_of_sched (cmd := { we := true, aspace := true, burst := burst, addr := addr }) hwf hstart rfl rfl hpre hws hw hpost
  rw [hdev, Option.map_some, hbus] at hexec
  obtain ⟨x, more, slot, ca, q, r, hq', hafter⟩ := deviceAfter_regWrBus (cfg := s.cfg) (n := s.cycle)
    (ca := caOf { we := true, aspace := true, burst := burst, addr := addr }) htx hquiet (by simp) (by simp) hv
  refine ⟨_, obs, congrArg _ hexec, ?_⟩
  rw [hafter]
  refine ⟨fun p hp => hp ▸ ⟨rfl, rfl⟩, (writeReg_mem_ca _ _ _).1, writeReg_id0 _ _ _, hq'⟩

end Sys2Proof.Proofs
end

section
/-! Proofs about the memory transactions and the reads of the data port with ENV-REF behind the PHY (20_memory.md R104; 41_controller.md
R235, R236, R238): CORE's samples are the device's answers, so the latency sampled is the device's and the words taken are its words. -/

namespace Sys2Proof.Proofs

open Sys2Proof Sys2Proof.Machine Sys2Proof.Safety Sys2Proof.Laws

/-! ## What CORE samples -/

section Samples

variable {s : State} {cmd : Cmd} {c : Inputs} {is rest : List Inputs} {d : Device}

/-- After a leg from the launch on, CORE samples the device's answer to the record of so many cycles ago. -/
theorem sample_after_leg {k : Nat} {c' : Ctl} {b : BusOut} {bs xs ys : List BusOut} {h : List WItem} {t : List HalfWord}
    (hstart : Starts s c is rest) (hdev : s.device = some d) (hk : k < is.length)
    (hl : Leg s.cfg (s.core.ctl.launch (caOf cmd) false) (dataInputs ((applied is.length (launched s cmd)).take k)) c' bs h t)
    (hrec : d.txq ++ BusOut.idle :: bs = xs ++ b :: ys) (hlen : bs.length + 1 = xs.length + d.rxq.length) (hpos : 1 ≤ d.rxq.length) :
    ∃ i, (applied is.length (launched s cmd))[k]? = some i ∧
      i.phy.dqIn = ((devRun s.cfg s.cycle d xs).busCycle s.cfg (s.cycle + xs.length) b).2.dqIn ∧
      i.phy.rwdsIn = ((devRun s.cfg s.cycle d xs).busCycle s.cfg (s.cycle + xs.length) b).2.rwdsIn := by
  obtain ⟨-, -, -, hb, hr⟩ := (dataReady_iff s).1 hstart.ready
  obtain ⟨o, hlaunch, -⟩ := hstart.launched_eq cmd
  have hquiet : ∀ i ∈ applied k (launched s cmd), quiet i = true := fun i hi =>
    hstart.applied_quiet cmd i (List.mem_of_mem_take (by rwa [applied_take hk.le]))
  rw [applied_take hk.le] at hl
  obtain ⟨-, hbus, -⟩ := coreRun_leg (s := { s.core with ctl := s.core.ctl.launch (caOf cmd) false }) hquiet hb hr hl
  have hthen : (cycles k (launched s cmd)).device = some (deviceAfter s.cfg s.cycle d (BusOut.idle :: bs)) := by
    rw [cycles_device, show (launched s cmd).cfg = s.cfg by rw [hlaunch],
      show (launched s cmd).core = { s.core with ctl := s.core.ctl.launch (caOf cmd) false } by rw [hlaunch],
      show (launched s cmd).cycle = s.cycle + 1 by rw [hlaunch], hbus,
      show (launched s cmd).device = s.device.map fun d => d.tick s.cfg s.cycle BusOut.idle by rw [hlaunch], hdev]
    rfl
  obtain ⟨i, hi, hphy⟩ := applied_getElem_phy hk (launched s cmd)
  have hsample : i.phy = (deviceAfter s.cfg s.cycle d (BusOut.idle :: bs)).phyIn (cycles k (launched s cmd)).cycle := by
    rw [hphy, State.phyIn, hthen]
  exact ⟨i, hi, hsample ▸ phyIn_deviceAfter hrec hlen hpos _⟩

/-- With variable latency the device indicates its draw through slot 2 (20_memory.md R104). -/
theorem indicated_of_variable {cfg : Cfg} {n : Nat} {ca : CaPacket} {x : Bool} {more : List Bool} (hbanks : cfg.nbanks = 1)
    (hquiet : quietQueue d = true) (hx : d.draws = x :: more) (hfixed : d.cr0a.getLsbD 3 = false) (k : Nat) :
    ((devRun cfg n d (d.txq ++ [BusOut.idle] ++ [BusOut.drive (caHi ca), BusOut.drive (caMid ca)])).busCycle cfg k
      (BusOut.drive (caLo ca))).2.rwdsIn = if x then 0b11#2 else 0b00#2 := by
  rw [devRun_append, devRun_released hquiet,
    devRun_packetStart (d := { d with slot := 0, ca := 0#48 }) rfl (draw_of_draws rfl hx), busCycle_indicator rfl rfl rfl]
  rw [BitVec.getLsbD_eq_getElem (by omega)] at hfixed
  simp [Device.two, Device.die, hbanks, Device.cr0, hfixed]

/-- The latency CORE samples is the device's draw, or fixed (41_controller.md R208, R216; 20_memory.md R104). -/
theorem latency_sampled {x : Bool} {more : List Bool} (hwf : s.cfg.wf = true) (hstart : Starts s c is rest) (hdev : s.device = some d)
    (hready : deviceReady s d (caOf cmd) = true) (hx : d.draws = x :: more) (hpath : (cmd.we && cmd.aspace) = false)
    (hk : 4 + s.cfg.selDly < is.length) :
    ∃ m, (applied is.length (launched s cmd))[4 + s.cfg.selDly]? = some m ∧ longLatency s.cfg m.phy = (s.cfg.fixed || x) := by
  obtain ⟨-, hd, -, -, -⟩ := (dataReady_iff s).1 hstart.ready
  obtain ⟨htx, hrx, hpos, hquiet, -, -, hfixed⟩ := (deviceReady_iff s d (caOf cmd)).1 hready
  obtain ⟨-, -, -, -, -, hvariable, -⟩ := (wf_iff s.cfg).1 hwf
  cases hf : s.cfg.fixed with
  | true =>
    obtain ⟨m, hm, -⟩ := applied_getElem_phy hk (launched s cmd)
    exact ⟨m, hm, by simp [longLatency, hf]⟩
  | false =>
    obtain ⟨hbanks, -, hsum⟩ := hvariable.resolve_left (by simp [hf])
    have hleg := leg_toSample (cfg := s.cfg) (c := s.core.ctl.launch (caOf cmd) false) (loadsFit_of_wf hwf) rfl hd
      (by simpa [Ctl.regWritePath] using hpath) (pre := dataInputs ((applied is.length (launched s cmd)).take (4 + s.cfg.selDly)))
      (by rw [dataInputs_length, List.length_take, applied_length]; omega)
    obtain ⟨m, hm, -, hrwds⟩ := sample_after_leg (xs := d.txq ++ [BusOut.idle] ++ [BusOut.drive (caHi (caOf cmd)),
        BusOut.drive (caMid (caOf cmd))]) (b := BusOut.drive (caLo (caOf cmd)))
      (ys := BusOut.drive 0#16 :: List.replicate s.cfg.selDly (delayBus (s.core.ctl.launch (caOf cmd) false))) hstart hdev hk hleg
      (by simp [caCycles]) (by simp [caCycles, htx, hrx, Cfg.selDly]; omega) (by omega)
    have hdie : (withPacket d (caOf cmd)).die s.cfg = false := by simp [Device.die, hbanks]
    rw [hdie, hf] at hfixed
    rw [indicated_of_variable hbanks hquiet hx hfixed] at hrwds
    exact ⟨m, hm, by cases x <;> simp [longLatency, hf, hrwds]⟩

end Samples

/-- The sample is taken before the data: the fixed part of the latency is over no earlier. -/
theorem selDly_lt_opening {cfg : Cfg} {x : Bool} {pre : List Inputs} (hwf : cfg.wf = true)
    (hpre : 2 + cfg.lat (cfg.fixed || x) ≤ pre.length) : 4 + cfg.selDly < pre.length := by
  have hlong : longLatency cfg { dqIn := 0#16, rwdsIn := if x then 0b11#2 else 0b00#2, pllLocked := true } = (cfg.fixed || x) := by
    cases x <;> simp [longLatency]
  have hoff := fixedOffset_le_lat hwf { dqIn := 0#16, rwdsIn := if x then 0b11#2 else 0b00#2, pllLocked := true }
  rw [hlong, fixedOffset_eq hwf, ← selDly_eq] at hoff
  omega

/-- The same sample, in the cycles before the data. -/
theorem latency_sampled_before {s : State} {cmd : Cmd} {c : Inputs} {is rest pre ds : List Inputs} {d : Device} {x : Bool}
    {more : List Bool} (hwf : s.cfg.wf = true) (hstart : Starts s c is rest) (hdev : s.device = some d)
    (hready : deviceReady s d (caOf cmd) = true) (hx : d.draws = x :: more) (hpath : (cmd.we && cmd.aspace) = false)
    (happ : applied is.length (launched s cmd) = pre ++ ds) (hpre : 4 + s.cfg.selDly < pre.length) :
    ∃ m, pre[4 + s.cfg.selDly]? = some m ∧ longLatency s.cfg m.phy = (s.cfg.fixed || x) := by
  have hlen : is.length = pre.length + ds.length := by rw [← applied_length is.length (launched s cmd), happ, List.length_append]
  obtain ⟨m, hm, hlong⟩ := latency_sampled hwf hstart hdev hready hx hpath (by omega)
  rw [happ, List.getElem?_append_left hpre] at hm
  exact ⟨m, hm, hlong⟩

/-- Settles O50: `transact_memWr` with the device's latency, the device being fed with its bus cycles. -/
theorem deviceStoresBurst : Obligations.DeviceStoresBurst := by
  intro s d burst addr c w pre ws post rest x more hwf hready hdev hdevReady hx hs hq hpre hws hw hpost
  obtain ⟨htx, -, -, hquiet, hlock, hcode, hfixed⟩ := (deviceReady_iff s d _).1 hdevReady
  have hstart := starts_of_sched hready hs hq (phyIn_locked_of_device hdev hlock)
  obtain ⟨pre', ws', w', post', happ, hpre', hws', hw', hpost'⟩ := applied_launched_split
    { we := true, aspace := false, burst := burst, addr := addr } hstart
  have hwords : SameClients (ws' ++ [w']) (ws ++ [w]) := hws'.append (congrArg (fun x => [x]) hw')
  have hlen : pre'.length = 2 + s.cfg.lat (s.cfg.fixed || x) := hpre'.length.trans hpre
  obtain ⟨m, hm, hlong⟩ := latency_sampled_before hwf hstart hdev hdevReady hx rfl happ (selDly_lt_opening hwf hlen.ge)
  obtain ⟨obs, hexec, hbus, hhand, htake⟩ := transact_memWr hwf hstart rfl rfl happ hm (by rw [hlong, hlen])
    (hws'.forall (p := fun p => (p.wdataValid && p.wdata.last) = false) hws) (by rw [lastWord, hw']; exact hw)
    (hpost'.length.trans hpost)
  rw [hlong, hws'.length, hdev, Option.map_some, hbus, hlong] at hexec
  obtain ⟨slot, ca, q, r, hq', hafter⟩ := deviceAfter_memWrBus (n := s.cycle) (ws := ws' ++ [w'])
    (ca := caOf { we := true, aspace := false, burst := burst, addr := addr }) htx hquiet hx (by simp) (by simp)
    (latency_addressed hwf hcode hfixed) (three_le_lat hwf _)
  refine ⟨_, obs, congrArg _ hexec, ?_⟩
  rw [hafter, hwords.offeredIn]
  exact ⟨rfl, rfl, rfl, rfl, rfl, hq', hhand.trans hwords.offeredIn, htake⟩

end Sys2Proof.Proofs
end

section
/-! Proofs about the reads of the data port with ENV-REF behind the PHY (20_memory.md R104; 41_controller.md R230, R236, R238): in data
cycle `j` CORE samples word `j` of the burst. -/

namespace Sys2Proof.Proofs

open Sys2Proof Sys2Proof.Machine Sys2Proof.Safety Sys2Proof.Laws

/-! ## The device through a read -/

section Device

variable {cfg : Cfg} {n : Nat} {d : Device} {ca : CaPacket} {x : Bool} {more : List Bool}

/-- The slots of a captured read, and its end, change nothing but the slot and the packet. -/
theorem devRun_readEnd (h3 : 3 ≤ d.slot) (hr : caRead d.ca = true) (m k : Nat) :
    ∃ slot ca, devRun cfg n d ((BusOut.drive 0#16 :: (List.replicate m BusOut.listen ++ [BusOut.idle])).take k) =
      { d with slot := slot, ca := ca } := by
  cases k with
  | zero => exact ⟨d.slot, d.ca, rfl⟩
  | succ k =>
    rw [List.take_succ_cons, devRun, busCycle_of_takeSlot rfl rfl (by omega) (takeSlot_read h3 hr), List.take_append,
      List.take_replicate, devRun_append, devRun_read (d := { d with slot := d.slot + 1 }) rfl rfl (Nat.le_succ_of_le h3) hr]
    exact devRun_unclocked (unclocked_take (bs := [BusOut.idle]) rfl _)

/-- A read changes no memory and no register (20_memory.md R104). -/
theorem deviceAfter_readBus {m : Nat} (hm : d.txq.length ≤ m + 2) (hq : quietQueue d = true) (hx : d.draws = x :: more)
    (hread : caRead ca = true) :
    ∃ slot ca' q r, deviceAfter cfg n d (readBus ca m ++ [BusOut.idle]) =
      { d with extra := x, draws := more, slot := slot, ca := ca', txq := q, rxq := r } := by
  have hrecords : d.txq ++ (readBus ca m ++ [BusOut.idle]) =
      (d.txq ++ BusOut.idle :: caCycles ca) ++ BusOut.drive 0#16 :: (List.replicate m BusOut.listen ++ [BusOut.idle]) := by
    simp [readBus]
  have hfront : (d.txq ++ BusOut.idle :: caCycles ca).length ≤ (readBus ca m ++ [BusOut.idle]).length := by
    simp [readBus, caCycles]
    omega
  obtain ⟨slot, ca', hrun⟩ := devRun_readEnd (cfg := cfg) (n := n + (d.txq ++ BusOut.idle :: caCycles ca).length)
    (d := addressed d ca x more) (Nat.le_refl 3) hread m
    ((readBus ca m ++ [BusOut.idle]).length - (d.txq ++ BusOut.idle :: caCycles ca).length)
  have hafter := deviceAfter_eq (cfg := cfg) (n := n) (d := d) (bs := readBus ca m ++ [BusOut.idle])
  rw [hrecords, List.take_append, List.take_of_length_le hfront, devRun_append, devRun_addressed hq hx, hrun] at hafter
  exact ⟨slot, ca', _, _, hafter⟩

/-- The records of a read up to data slot `j`. -/
theorem devRun_toReadWord {long : Bool} (hq : quietQueue d = true) (hx : d.draws = x :: more) (hread : caRead ca = true)
    (h3 : 3 ≤ cfg.lat long) (j : Nat) :
    devRun cfg n d (d.txq ++ BusOut.idle :: caCycles ca ++ BusOut.drive 0#16 :: List.replicate (cfg.lat long - 2 + j) BusOut.listen) =
      { addressed d ca x more with slot := 2 + cfg.lat long + j } := by
  have hslot : (addressed d ca x more).slot + 1 + (cfg.lat long - 2 + j) = 2 + cfg.lat long + j := by
    simp only [addressed]
    omega
  rw [devRun_append, devRun_addressed hq hx, devRun,
    busCycle_of_takeSlot (d := addressed d ca x more) (b := BusOut.drive 0#16) rfl rfl (Nat.succ_ne_zero 2)
      (takeSlot_read (Nat.le_refl 3) hread),
    devRun_read (d := { addressed d ca x more with slot := (addressed d ca x more).slot + 1 }) rfl rfl (Nat.le_succ 3) hread, ← hslot]

/-- In data slot `j` the device answers with word `j` of the burst and the strobe (20_memory.md R104). -/
theorem answer_readWord {long : Bool} (hq : quietQueue d = true) (hx : d.draws = x :: more) (hread : caRead ca = true)
    (hlat : (addressed d ca x more).latency cfg = cfg.lat long) (h3 : 3 ≤ cfg.lat long) (j k : Nat) :
    ((devRun cfg n d (d.txq ++ BusOut.idle :: caCycles ca ++
        BusOut.drive 0#16 :: List.replicate (cfg.lat long - 2 + j) BusOut.listen)).busCycle cfg k BusOut.listen).2 =
      { dqIn := (withPacket d ca).readAt cfg k ((withPacket d ca).wordAddr cfg j), rwdsIn := 0b10#2 } := by
  rw [devRun_toReadWord hq hx hread h3]
  exact busCycle_readWord (d := { addressed d ca x more with slot := 2 + cfg.lat long + j }) rfl rfl (by simp only; omega) hread
    (show 2 + cfg.lat long + j = 2 + (addressed d ca x more).latency cfg + j by rw [hlat])

end Device

/-! ## The words of the data cycles -/

section Words

variable {cfg : Cfg} {n : Nat} {p : Device}

/-- What a data cycle of a read samples when word `j` reaches it. -/
def samplesWord (cfg : Cfg) (p : Device) (n j : Nat) (i : Inputs) : Prop :=
  i.phy.dqIn = p.readAt cfg (n + j) (p.wordAddr cfg j) ∧ i.phy.rwdsIn = 0b10#2

/-- When each data cycle samples its word, the words strobed and taken are those of the burst. -/
theorem strobedIn_eq_burstRead {as is : List Inputs} {j : Nat} (hsame : SameClients as is)
    (hsample : ∀ k a, as[k]? = some a → samplesWord cfg p n (j + k) a) : strobedIn as = burstRead cfg p n j is := by
  induction as generalizing is j with
  | nil =>
    obtain rfl := List.eq_nil_of_length_eq_zero hsame.length.symm
    rfl
  | cons a as ih =>
    obtain ⟨i, is, rfl⟩ := List.exists_cons_of_length_eq_add_one (hsame.length.symm.trans (List.length_cons ..))
    obtain ⟨hdp, hrest⟩ := List.cons_eq_cons.1 hsame
    have hfirst : samplesWord cfg p n j a := hsample 0 a rfl
    obtain ⟨hdq, hrwds⟩ := hfirst
    have hwords := ih (j := j + 1) hrest fun k b hb => Nat.add_assoc j 1 k ▸ Nat.add_comm 1 k ▸ hsample (k + 1) b hb
    rw [burstRead, ← hwords, ← hdq, ← hdp]
    cases hready : a.dp.rdataReady <;> simp [strobedIn, hrwds, hready]

end Words

section Reads

variable {s : State} {cmd : Cmd} {c m : Inputs} {is rest pre ds : List Inputs} {d : Device} {x : Bool} {more : List Bool} {j : Nat}

/-- In data cycle `j` CORE samples word `j` (41_controller.md R230; 20_memory.md R104). -/
theorem word_sampled (hwf : s.cfg.wf = true) (hstart : Starts s c is rest) (hdev : s.device = some d)
    (hready : deviceReady s d (caOf cmd) = true) (hx : d.draws = x :: more) (hread : cmd.we = false)
    (happ : applied is.length (launched s cmd) = pre ++ ds) (hm : pre[4 + s.cfg.selDly]? = some m)
    (hlong : longLatency s.cfg m.phy = (s.cfg.fixed || x))
    (hpre : pre.length = 2 + s.cfg.lat (s.cfg.fixed || x) + s.cfg.txLatency + s.cfg.rxLatency)
    (hj : j < ds.length) (hds : ∀ i ∈ ds.take j, lastRead i = false) :
    ∃ i, ds[j]? = some i ∧
      samplesWord s.cfg (withPacket d (caOf cmd)) (s.cycle + s.cfg.lat (s.cfg.fixed || x) + s.cfg.txLatency + 3) j i := by
  obtain ⟨-, hd, -, -, -⟩ := (dataReady_iff s).1 hstart.ready
  obtain ⟨htx, hrx, hpos, hquiet, -, hcode, hfixed⟩ := (deviceReady_iff s d (caOf cmd)).1 hready
  have h3 := three_le_lat hwf (s.cfg.fixed || x)
  have hca : caRead (caOf cmd) = true := by simp [hread]
  have hlen : is.length = pre.length + ds.length := by rw [← applied_length is.length (launched s cmd), happ, List.length_append]
  have hleg : Leg s.cfg (s.core.ctl.launch (caOf cmd) false) (dataInputs (pre ++ ds.take j))
      { s.core.ctl.launch (caOf cmd) false with state := .read, dlycnt := 0#8 }
      (caCycles (caOf cmd) ++ BusOut.drive 0#16 :: List.replicate (pre.length - 4 + j) BusOut.listen)
      [] (strobedWords (dataInputs (ds.take j))) := by
    have hopening := leg_readOpening (c := s.core.ctl.launch (caOf cmd) false) (pre := dataInputs pre) hwf rfl hd hca
      (dataInputs_getElem? hm) (by rw [dataInputs_length, hpre, hlong])
    have hreading := leg_reading (cfg := s.cfg) (c := { s.core.ctl.launch (caOf cmd) false with state := .read, dlycnt := 0#8 })
      rfl rfl (forall_takesLast hds)
    have hleg := hopening.append hreading
    rw [dataInputs_length, dataInputs_length, List.length_take_of_le hj.le] at hleg
    rw [List.replicate_add]
    simpa using hleg
  have htake : (applied is.length (launched s cmd)).take (pre.length + j) = pre ++ ds.take j := by
    rw [happ, List.take_append, List.take_of_length_le (by omega), Nat.add_sub_cancel_left]
  rw [← htake] at hleg
  obtain ⟨rel, hrel⟩ : ∃ rel, pre.length - 4 + j = s.cfg.lat (s.cfg.fixed || x) - 2 + j + (rel + 1) :=
    ⟨s.cfg.txLatency + s.cfg.rxLatency - 1, by omega⟩
  obtain ⟨i, hi, hdq, hrwds⟩ := sample_after_leg (b := BusOut.listen) (ys := List.replicate rel BusOut.listen)
    (xs := d.txq ++ BusOut.idle :: caCycles (caOf cmd) ++
      BusOut.drive 0#16 :: List.replicate (s.cfg.lat (s.cfg.fixed || x) - 2 + j) BusOut.listen) hstart hdev (by omega) hleg
    (by rw [hrel, List.replicate_add, List.replicate_succ]; simp only [List.append_assoc, List.cons_append])
    (by simp [caCycles, htx, hrx]; omega) (by omega)
  have hcycle : s.cycle + (d.txq ++ BusOut.idle :: caCycles (caOf cmd) ++
      BusOut.drive 0#16 :: List.replicate (s.cfg.lat (s.cfg.fixed || x) - 2 + j) BusOut.listen).length
        = s.cycle + s.cfg.lat (s.cfg.fixed || x) + s.cfg.txLatency + 3 + j := by
    simp [caCycles, htx]
    omega
  rw [answer_readWord hquiet hx hca (latency_addressed hwf hcode hfixed) h3, hcycle] at hdq hrwds
  rw [happ, List.getElem?_append_right (by omega), Nat.add_sub_cancel_left] at hi
  exact ⟨i, hi, hdq, hrwds⟩

/-- The data cycles of a read sample the words of the burst. -/
theorem words_sampled {ws post : List Inputs} {w : Inputs} (hwf : s.cfg.wf = true) (hstart : Starts s c is rest)
    (hdev : s.device = some d) (hready : deviceReady s d (caOf cmd) = true) (hx : d.draws = x :: more) (hread : cmd.we = false)
    (happ : applied is.length (launched s cmd) = pre ++ (ws ++ [w] ++ post)) (hm : pre[4 + s.cfg.selDly]? = some m)
    (hlong : longLatency s.cfg m.phy = (s.cfg.fixed || x))
    (hpre : pre.length = 2 + s.cfg.lat (s.cfg.fixed || x) + s.cfg.txLatency + s.cfg.rxLatency)
    (hws : ∀ i ∈ ws, lastRead i = false) (k : Nat) (a : Inputs) (ha : (ws ++ [w])[k]? = some a) :
    samplesWord s.cfg (withPacket d (caOf cmd)) (s.cycle + s.cfg.lat (s.cfg.fixed || x) + s.cfg.txLatency + 3) k a := by
  have hk : k < (ws ++ [w]).length := (List.getElem?_eq_some_iff.1 ha).1
  have hkws : k ≤ ws.length := by simpa [Nat.lt_succ_iff] using hk
  have hbefore : (ws ++ [w] ++ post).take k = ws.take k := by
    rw [List.append_assoc, List.take_append_of_le_length hkws]
  obtain ⟨i, hi, hsample⟩ := word_sampled (j := k) hwf hstart hdev hready hx hread happ hm hlong hpre
    (by rw [List.length_append]; omega) fun i hi => hws i (List.mem_of_mem_take (hbefore ▸ hi))
  rw [List.getElem?_append_left hk, ha] at hi
  exact Option.some.inj hi ▸ hsample

end Reads

/-- A consumer that is ready without last does not end the read, strobed or not (41_controller.md R218). -/
theorem lastRead_of_not_last {i : Inputs} (h : i.dp.rdataReady = true → i.dp.rdataLast = false) : lastRead i = false := by
  cases hr : i.dp.rdataReady with
  | false => simp [lastRead, hr]
  | true => simp [lastRead, h hr]

/-- Settles O51: `transact_read` with the device's latency, the data cycles sampling the words of the burst. -/
theorem deviceDeliversBurst : Obligations.DeviceDeliversBurst := by
  intro s d burst addr c w e pre ws rest reg x more hwf hready hdev hdevReady hx hs hq hpre hws hw hlast
  obtain ⟨htx, -, -, hquiet, hlock, -, -⟩ := (deviceReady_iff s d _).1 hdevReady
  have hstart := starts_of_sched (post := [e]) hready hs (by simpa using hq) (phyIn_locked_of_device hdev hlock)
  obtain ⟨pre', ws', w', post', happ, hpre', hws', hw', hpost'⟩ := applied_launched_split
    { we := false, aspace := reg, burst := burst, addr := addr } hstart
  obtain ⟨e', rfl, -⟩ := sameClients_singleton hpost'
  have hwords : SameClients (ws' ++ [w']) (ws ++ [w]) := hws'.append (congrArg (fun x => [x]) hw')
  have hlen : pre'.length = 2 + s.cfg.lat (s.cfg.fixed || x) + s.cfg.txLatency + s.cfg.rxLatency := hpre'.length.trans hpre
  have hnotLast : ∀ i ∈ ws', lastRead i = false := fun i hi =>
    lastRead_of_not_last (hws'.forall (p := fun p => p.rdataReady = true → p.rdataLast = false) hws i hi)
  obtain ⟨m, hm, hlong⟩ := latency_sampled_before hwf hstart hdev hdevReady hx rfl happ (selDly_lt_opening (x := x) hwf (by omega))
  have hsample := words_sampled hwf hstart hdev hdevReady hx rfl happ hm hlong hlen hnotLast
  have hwLast : lastRead w' = true := by
    obtain ⟨-, hrwds⟩ := hsample ws'.length w' (by simp)
    simp [lastRead, hrwds, hw', hw, hlast]
  obtain ⟨obs, hexec, hbus, htake, hhand⟩ := transact_read hwf hstart rfl happ hm (by rw [hlong, hlen]) hnotLast hwLast
  rw [hlong, hws'.length, hdev, Option.map_some, hbus, hlong, hws'.length] at hexec
  obtain ⟨slot, ca, q, r, hafter⟩ := deviceAfter_readBus (cfg := s.cfg) (n := s.cycle)
    (m := s.cfg.lat (s.cfg.fixed || x) + s.cfg.txLatency + s.cfg.rxLatency + ws.length - 1) (by rw [htx]; omega) hquiet hx
    (show caRead (caOf { we := false, aspace := reg, burst := burst, addr := addr }) = true by simp)
  rw [strobedIn_eq_burstRead hwords fun k a ha => (Nat.zero_add k).symm ▸ hsample k a ha] at htake
  rw [hafter] at hexec
  cases reg <;> exact ⟨_, obs, congrArg _ hexec, htake, rfl, rfl, rfl, rfl, rfl, hhand⟩

end Sys2Proof.Proofs
end

section
/-! Proofs about the Crossbar (42_crossbar.md R264 to R276): what each port sees of a cycle, what the priority bit becomes, and how both
go through a run of cycles. -/

namespace Sys2Proof.Proofs

open Sys2Proof Sys2Proof.Machine Sys2Proof.Safety Sys2Proof.Laws

/-! ## Which port is connected -/

section Ports

variable {cfg : Cfg} {s : CoreState} {i : Inputs}

theorem lockout_eq_true_iff : s.lockout = true ↔ s.rs.setupDone = false := by simp [CoreState.lockout]

/-- Without lockout the priority bit alone selects (42_crossbar.md R261). -/
theorem sel_of_not_lockout (h : s.lockout = false) : s.sel = s.xb.regSelect := by simp [CoreState.sel, h]

theorem sel_of_lockout (h : s.lockout = true) : s.sel = true := by simp [CoreState.sel, h]

theorem mpIn_of_sel (h : s.sel = true) : s.mpIn cfg i = s.rs.port cfg := by rw [CoreState.mpIn, h, xbForward_reg]

theorem mpIn_of_not_sel (h : s.sel = false) :
    s.mpIn cfg i = { i.dp with cmdValid := i.dp.cmdValid && !(s.rs.port cfg).cmdValid } := by
  rw [CoreState.mpIn, h, xbForward_data]

theorem rpOut_of_sel (h : s.sel = true) : s.rpOut i = s.mpOut i := by simp [CoreState.rpOut, xbToReg, h]

theorem rpOut_of_not_sel (h : s.sel = false) : (s.rpOut i).cmdReady = false ∧ NoWord (s.rpOut i) := by
  simp [CoreState.rpOut, xbToReg, h, NoWord]

theorem dpOut_of_sel (h : s.sel = true) : (s.dpOut cfg i).cmdReady = false ∧ NoWord (s.dpOut cfg i) := by
  simp [CoreState.dpOut, xbToData, h, NoWord]

/-- With the register port connected, CORE's next state is the same whatever the data client presents. -/
theorem tick_dp_of_sel (h : s.sel = true) (dp : PortIn) : s.tick cfg { i with dp := dp } = s.tick cfg i := by
  simp only [CoreState.tick, CoreState.advance, mpIn_of_sel h]
  rfl

end Ports

/-- Settles O27, port by port. -/
theorem unselectedPortIsolated : Obligations.UnselectedPortIsolated := by
  intro cfg s i
  refine ⟨fun hsel => ?_, fun hsel => ?_⟩
  · obtain ⟨hcmd, hw, hr⟩ := dpOut_of_sel (cfg := cfg) (i := i) hsel
    exact ⟨hcmd, hw, hr, tick_dp_of_sel hsel⟩
  · obtain ⟨hcmd, hw, hr⟩ := rpOut_of_not_sel (i := i) hsel
    rw [mpIn_of_not_sel hsel]
    exact ⟨hcmd, hw, hr, rfl, fun hv => (Bool.and_eq_true_iff.1 hv).1, rfl, rfl, rfl, rfl⟩

/-! ## The priority bit in one cycle -/

section Cycle

variable {cfg : Cfg} {s : CoreState} {i : Inputs}

/-- The priority bit after a cycle without reset (42_crossbar.md R270). -/
theorem tick_regSelect (hr : i.reset = false) :
    (s.tick cfg i).xb.regSelect = (s.lockout || if boundary s i then (s.rs.port cfg).cmdValid else s.xb.regSelect) := by
  rw [tick_of_not_reset _ _ _ hr, advance_xb, xbTick_eq]
  rfl

theorem tick_regSelect_of_lockout (hr : i.reset = false) (hl : s.lockout = true) : (s.tick cfg i).xb.regSelect = true := by
  rw [tick_regSelect hr, hl, Bool.true_or]

theorem tick_regSelect_of_boundary (hr : i.reset = false) (hl : s.lockout = false) (hb : boundary s i = true) :
    (s.tick cfg i).xb.regSelect = (s.rs.port cfg).cmdValid := by
  rw [tick_regSelect hr, hl, Bool.false_or, if_pos hb]

theorem tick_regSelect_of_not_boundary (hr : i.reset = false) (hl : s.lockout = false) (hb : boundary s i = false) :
    (s.tick cfg i).xb.regSelect = s.xb.regSelect := by
  rw [tick_regSelect hr, hl, hb]
  rfl

/-- A command is accepted in a boundary cycle only, and then whichever the connected port presents; a waiting register command masks
the data port's (42_crossbar.md R272). -/
theorem cmdTransfer_of_boundary (hl : s.lockout = false) (hb : boundary s i = true) :
    s.cmdTransfer cfg i = true ↔
      (s.xb.regSelect = true ∧ (s.rs.port cfg).cmdValid = true) ∨
      (s.xb.regSelect = false ∧ (s.rs.port cfg).cmdValid = false ∧ i.dp.cmdValid = true) := by
  have htransfer : s.cmdTransfer cfg i = (s.mpIn cfg i).cmdValid := (congrArg _ hb).trans (Bool.and_true _)
  rw [htransfer]
  cases hx : s.xb.regSelect with
  | true => simp [mpIn_of_sel ((sel_of_not_lockout hl).trans hx)]
  | false => simp [mpIn_of_not_sel ((sel_of_not_lockout hl).trans hx), and_comm]

end Cycle

/-- Settles O28, lockout, boundary cycles and the others apart. -/
theorem priorityBit : Obligations.PriorityBit := fun _ _ _ hr =>
  ⟨tick_regSelect_of_lockout hr, tick_regSelect_of_not_boundary hr,
    fun hl hb => ⟨tick_regSelect_of_boundary hr hl hb, cmdTransfer_of_boundary hl hb⟩⟩

/-! ## The connection through a run of cycles -/

section Run

variable {cfg : Cfg} {s : CoreState} {i : Inputs}

/-- What each cycle of a run keeps, under a condition on the state and the inputs it starts with, the run keeps. -/
theorem coreRun_induction {P : CoreState → Prop} {C : CoreState → Inputs → Prop} (hP : ∀ k j, C k j → P k → P (k.tick cfg j))
    {is : List Inputs} (hC : ∀ n j, is[n]? = some j → C (coreRun cfg s (is.take n)) j) (h : P s) : P (coreRun cfg s is) := by
  induction is generalizing s with
  | nil => exact h
  | cons i is ih => exact ih (fun n j hj => hC (n + 1) j hj) (hP s i (hC 0 i rfl) h)

/-- Outside a boundary cycle that follows the lockout the priority bit, once set, stays set. -/
theorem tick_regSelect_of_set (hr : i.reset = false) (hb : boundary s i = true → s.lockout = true) (hx : s.xb.regSelect = true) :
    (s.tick cfg i).xb.regSelect = true := by
  cases hl : s.lockout with
  | true => exact tick_regSelect_of_lockout hr hl
  | false =>
    have hnot : boundary s i = false := Bool.eq_false_iff.2 fun h => Bool.false_ne_true (hl.symm.trans (hb h))
    rw [tick_regSelect_of_not_boundary hr hl hnot, hx]

/-- A cycle with a transaction in flight leaves the connection alone: during lockout the bit is set before the lockout falls, and
afterwards no boundary cycle changes it (42_crossbar.md R276). -/
theorem tick_sel_of_not_idle (hr : i.reset = false) (hi : s.ctl.state ≠ .idle) : (s.tick cfg i).sel = s.sel := by
  cases hl : s.lockout with
  | true => rw [sel_of_lockout hl, sel_of_regSelect (tick_regSelect_of_lockout hr hl)]
  | false =>
    have hdone : (s.tick cfg i).lockout = false := by
      rw [tick_of_not_reset _ _ _ hr, CoreState.lockout, advance_rs, rsTick_setupDone (by simpa [CoreState.lockout] using hl)]
      rfl
    rw [sel_of_not_lockout hdone, sel_of_not_lockout hl,
      tick_regSelect_of_not_boundary hr hl (mpOut_cmdReady_of_not_idle i hi)]

end Run

/-- Settles O29: lockout connects the register port, and `tick_regSelect_of_set` carries the bit up to the first boundary cycle. -/
theorem lockoutDisconnectsDataPort : Obligations.LockoutDisconnectsDataPort := by
  intro cfg s i hd
  have hl : s.lockout = true := lockout_eq_true_iff.2 hd
  have hsel := sel_of_lockout hl
  obtain ⟨hcmd, hw, hr⟩ := dpOut_of_sel (cfg := cfg) (i := i) hsel
  rw [rpOut_of_sel hsel]
  refine ⟨hsel, hcmd, hw, hr, rfl, rfl, rfl, fun hreset => ⟨tick_regSelect_of_lockout hreset hl, fun is his hb => ?_⟩⟩
  exact coreRun_induction (P := fun k => k.xb.regSelect = true)
    (C := fun k j => j.reset = false ∧ (boundary k j = true → k.lockout = true))
    (fun _ _ ⟨hj, hjb⟩ hk => tick_regSelect_of_set hj hjb hk)
    (fun n j hj => ⟨his j (List.mem_of_getElem? hj), hb n j hj⟩) (tick_regSelect_of_lockout hreset hl)

/-- Settles O30: `tick_sel_of_not_idle`, cycle by cycle. -/
theorem noMidBurstSwitch : Obligations.NoMidBurstSwitch := by
  intro cfg s is his hidle
  refine coreRun_induction (P := fun k => k.sel = s.sel) (C := fun k j => j.reset = false ∧ k.ctl.state ≠ .idle)
    (fun _ _ ⟨hj, hjs⟩ hk => (tick_sel_of_not_idle hj hjs).trans hk) (fun n j hj => ?_) rfl
  obtain ⟨hn, -⟩ := List.getElem?_eq_some_iff.1 hj
  exact ⟨his j (List.mem_of_getElem? hj), hidle n hn⟩

end Sys2Proof.Proofs
end

section
/-! Proofs about the hand-over (42_crossbar.md R272 row 2): with the register port still connected, the first cycle of a data-port
transaction connects the data port and does nothing else. -/

namespace Sys2Proof.Proofs

open Sys2Proof Sys2Proof.Machine Sys2Proof.Safety Sys2Proof.Laws

/-! ## The device through a bus cycle without a clock -/

section Device

variable {cfg : Cfg} {n : Nat} {d : Device}

/-- Behind a quiet queue an idle bus cycle moves the queues on, and touches the slot and the packet at most. -/
theorem deviceAfter_idle (hq : quietQueue d = true) :
    ∃ slot ca q r, unclocked q = true ∧ q.length = d.txq.length ∧ r.length = d.rxq.length ∧
      deviceAfter cfg n d [BusOut.idle] = withQueues { d with slot := slot, ca := ca } q r := by
  have hrecords : unclocked (d.txq ++ [BusOut.idle]) = true := by
    rw [unclocked, List.all_append, Bool.and_eq_true]
    exact ⟨hq, rfl⟩
  obtain ⟨slot, ca, hrun⟩ := devRun_unclocked (cfg := cfg) (n := n) (d := d) (unclocked_take hrecords 1)
  have hafter := deviceAfter_eq (cfg := cfg) (n := n) (d := d) (bs := [BusOut.idle])
  rw [List.length_singleton, hrun] at hafter
  exact ⟨slot, ca, _, _, unclocked_drop hrecords 1, by simp, by simp, hafter⟩

/-- A device that is ready for a transaction stays so through an idle bus cycle, with what it stores. -/
theorem deviceReady_after_idle {s t : State} {ca : CaPacket} (hready : deviceReady s d ca = true) (hcfg : t.cfg = s.cfg)
    (hcycle : s.cycle ≤ t.cycle) :
    ∃ e, deviceAfter s.cfg n d [BusOut.idle] = e ∧ deviceReady t e ca = true ∧ e.draws = d.draws ∧ e.mem = d.mem ∧
      e.cr0a = d.cr0a ∧ e.cr0b = d.cr0b ∧ e.id0 = d.id0 := by
  obtain ⟨htx, hrx, hpos, hquiet, hlock, hcode, hfixed⟩ := (deviceReady_iff s d ca).1 hready
  obtain ⟨slot, ca', q, r, hq, hqlen, hrlen, hafter⟩ := deviceAfter_idle (cfg := s.cfg) (n := n) hquiet
  refine ⟨_, hafter, (deviceReady_iff _ _ _).2 ?_, rfl, rfl, rfl, rfl, rfl⟩
  rw [hcfg]
  exact ⟨hqlen.trans htx, hrlen.trans hrx, hpos, hq, hlock.trans hcycle, hcode, hfixed⟩

end Device

/-! ## The hand-over cycle -/

theorem accessReady_iff (s : State) :
    accessReady s = true ↔
      s.core.ctl.state = .idle ∧ s.core.ctl.dlycnt = 0#8 ∧ s.core.ctl.cfgPending = false ∧ s.core.rs.busy = false := by
  simp [accessReady, idleController, gate_iff, and_assoc]

/-- In a boundary cycle with nothing waiting, the register port gives way to the data port, and nothing else of CORE moves
(42_crossbar.md R272 row 2). -/
theorem tick_handOver {cfg : Cfg} {k : CoreState} {i : Inputs} (hs : k.ctl.state = .idle) (hd : k.ctl.dlycnt = 0#8)
    (hp : k.ctl.cfgPending = false) (hb : k.rs.busy = false) (hr : k.xb.regSelect = true) (hq : quiet i = true)
    (hlock : i.phy.pllLocked = true) : k.tick cfg i = { k with xb := { regSelect := false } } := by
  obtain ⟨hreset, hcsr⟩ := (quiet_iff i).1 hq
  obtain ⟨hstart, hdone, -⟩ := (busy_eq_false_iff k.rs).1 hb
  have hready : (k.mpOut i).cmdReady = true := mpOut_cmdReady_iff.2 ⟨hs, (gate_iff _).2 hd, hlock, hp⟩
  have hvalid : (k.rs.port cfg).cmdValid = false := by simp [Rs.port, hstart]
  have hctl : k.ctl.tick cfg (k.mpIn cfg i) i.phy = k.ctl := by
    rw [mpIn_of_sel (sel_of_regSelect hr), tick_idle hs hd]
    simp [Ctl.tickIdle, hlock, hp, hvalid]
  have hxb : k.xb.tick k.lockout (k.mpOut i).cmdReady (k.rs.port cfg).cmdValid = { regSelect := false } := by
    simp [Xb.tick, CoreState.lockout, hdone, hready, hvalid, hr]
  rw [tick_of_not_reset _ _ _ hreset, CoreState.advance, hctl, hxb, rsTick_idle hb _ hcsr]

section HandOver

variable {s : State} {cmd : Cmd} {c : Inputs} {rest : List Inputs}

/-- The machine after the hand-over cycle, the record of the cycle being `o`. -/
def handedOver (s : State) (rest : List Inputs) (o : Obs) : State :=
  { s with
    core := { s.core with xb := { regSelect := false } }
    device := s.device.map fun d => deviceAfter s.cfg s.cycle d [BusOut.idle]
    sched := rest, cycle := s.cycle + 1, trace := s.trace ++ [o] }

/-- The first cycle of a data-port transaction with the register port connected: the command waits, the bus is idle, no word passes. -/
theorem launched_eq_handedOver (hready : accessReady s = true) (hr : s.core.xb.regSelect = true) (hs : s.sched = c :: rest)
    (hq : quiet c = true) (hlock : s.phyIn.pllLocked = true) :
    ∃ o, launched s cmd = presentCmd (handedOver s rest o) cmd ∧ o.out.dp.cmdReady = false ∧ o.out.bus = BusOut.idle ∧
      handedByData [o] = [] ∧ takenByData [o] = [] := by
  obtain ⟨hidle, hd, hp, hb⟩ := (accessReady_iff s).1 hready
  have hin := inputs_presenting (cmd := cmd) hs
  have htick : (presentCmd s cmd).core.tick s.cfg (presentCmd s cmd).inputs = { s.core with xb := { regSelect := false } } :=
    tick_handOver hidle hd hp hb hr (by rw [hin]; exact hq) (by rw [hin]; exact hlock)
  obtain ⟨hcmd, hnoWord⟩ : (presentCmd s cmd).outputs.dp.cmdReady = false ∧ NoWord (presentCmd s cmd).outputs.dp :=
    dpOut_of_sel (s := (presentCmd s cmd).core) (sel_of_regSelect hr)
  have hbus : (presentCmd s cmd).outputs.bus = BusOut.idle := bus_of_resting (.inl hidle)
  have hreq : (presentCmd s cmd).reqAfter = some (.cmd cmd.toWord) := reqAfter_of_not_ready hcmd
  have hsched : (presentCmd s cmd).sched = c :: rest := hs
  refine ⟨{ inp := (presentCmd s cmd).inputs, out := (presentCmd s cmd).outputs }, ?_, hcmd, hbus,
    noWord_passes (by simpa using hnoWord)⟩
  rw [launched, State.clock, hbus, hreq, hsched]
  simp only [presentCmd, handedOver]
  rw [← htick]
  rfl

/-- A transaction is its first cycle and, while the schedule lasts, the same transaction from the state after it. -/
theorem transact_eq_of_launched {t : State} (hl : launched s cmd = presentCmd t cmd) (hs : s.sched = c :: rest) (ht : t.sched = rest)
    (hrest : rest ≠ []) : s.transact cmd = t.transact cmd := by
  have hpos : 1 ≤ rest.length := List.length_pos_iff.2 hrest
  have hs' : s.horizon = rest.length + 1 := by rw [State.horizon, hs, List.length_cons, max_eq_right (by omega)]
  have ht' : t.horizon = rest.length := by rw [State.horizon, ht, max_eq_right hpos]
  calc s.transact cmd = runWhile State.transacting (rest.length + 1) (presentCmd s cmd) := by rw [← hs']; rfl
    _ = runWhile State.transacting rest.length (launched s cmd) := runWhile_step rfl _
    _ = t.transact cmd := by rw [hl, ← ht']; rfl

end HandOver

/-- The data-port instructions are the transactions of their commands (41_controller.md R235 to R238). -/
theorem exec_dataPort {i : Instr}
    (hi : ∃ burst addr, i = .memRd burst addr ∨ i = .memWr burst addr ∨ i = .regRd burst addr ∨ i = .regWr burst addr) :
    ∃ cmd, ∀ s, exec i s = .next (s.transact cmd) := by
  obtain ⟨burst, addr, rfl | rfl | rfl | rfl⟩ := hi <;> exact ⟨_, fun _ => rfl⟩

/-- Settles O56: the hand-over cycle leaves the command waiting, and `transact_eq_of_launched` takes the transaction on from there. -/
theorem handOverCycle : Obligations.HandOverCycle := by
  intro s c rest hready hr hs hrest hq hl i hi
  obtain ⟨cmd, hexec⟩ := exec_dataPort hi
  obtain ⟨o, hlaunch, hcmd, hbus, hhand, htake⟩ :=
    launched_eq_handedOver (cmd := cmd) hready hr hs hq (phyIn_locked_of_lockedFor hs hl)
  obtain ⟨hidle, hd, hp, hb⟩ := (accessReady_iff s).1 hready
  refine ⟨handedOver s rest o, o, ?_, (dataReady_iff _).2 ⟨hidle, hd, hp, hb, rfl⟩, rfl, hcmd, hbus, hhand, htake, ?_⟩
  · rw [hexec, hexec, transact_eq_of_launched hlaunch hs rfl hrest]
  · intro d ca hdev hdevReady
    obtain ⟨e, hafter, hkept⟩ :=
      deviceReady_after_idle (n := s.cycle) (t := handedOver s rest o) hdevReady rfl (Nat.le_succ s.cycle)
    exact ⟨e, by rw [handedOver, hdev, Option.map_some, hafter], hkept⟩

end Sys2Proof.Proofs
end

section
/-! Proofs about RegisterSpace on its own (43_registerspace.md R296 to R310): what each of its states does at a tick, what a CSR write
does, what the CSR word shows, and when `rs.busy` changes. -/

namespace Sys2Proof.Proofs

open Sys2Proof Sys2Proof.Machine Sys2Proof.Safety Sys2Proof.Laws

/-! ## The state machine, state by state -/

section States

variable {r : Rs} {rp : PortOut} {csr : CsrIn}

theorem advance_start (hs : r.state = .start) (h : r.setupDone = false ∨ r.strobePending = true) :
    r.advance rp = { r with state := .waitCmd, strobePending := false } := by
  rw [Rs.advance, hs]
  rcases h with h | h <;> simp [h]

theorem advance_waitCmd (hs : r.state = .waitCmd) :
    r.advance rp = if rp.cmdReady then { r with state := if r.we then .waitWrite else .waitRead } else r := by
  rw [Rs.advance, hs]

theorem advance_waitWrite (hs : r.state = .waitWrite) : r.advance rp = if rp.wdataReady then r.wordTaken else r := by
  rw [Rs.advance, hs]

theorem advance_waitRead (hs : r.state = .waitRead) :
    r.advance rp = if rp.rdataValid then { r with regValue := rp.rdataData, state := .start } else r := by
  rw [Rs.advance, hs]

/-- After set-up a write leaves the die number alone (43_registerspace.md R306). -/
theorem wordTaken_of_setupDone (h : r.setupDone = true) : r.wordTaken = { r with state := .start } := by simp [Rs.wordTaken, h]

/-- The word for die 0 ends set-up (43_registerspace.md R306). -/
theorem wordTaken_of_lastDie (h : r.setupDone = false) (hd : r.dieNr = 0#2) :
    r.wordTaken = { r with state := .start, setupDone := true } := by simp [Rs.wordTaken, h, hd]

theorem wordTaken_of_die (h : r.setupDone = false) (hd : r.dieNr ≠ 0#2) :
    r.wordTaken = { r with state := .start, dieNr := r.dieNr - 1#2 } := by simp [Rs.wordTaken, h, hd]

theorem busy_of_ne_start (h : r.state ≠ .start) : r.busy = true := by simp [Rs.busy, h]

theorem busy_of_setup (h : r.setupDone = false) : r.busy = true := by simp [Rs.busy, h]

theorem busy_of_strobe (h : r.strobePending = true) : r.busy = true := by simp [Rs.busy, h]

/-- Busy, the CSR master has no say (43_registerspace.md R302). -/
theorem rsTick_of_busy (h : r.busy = true) : r.tick rp csr = r.advance rp := by simp [Rs.tick, h]

/-- Not busy, a CSR write is all that happens (43_registerspace.md R302). -/
theorem rsTick_of_write (h : r.busy = false) (hw : csr.we = true) : r.tick rp csr = r.latch csr.wdata := by
  have hrest : r.advance rp = r := rsTick_idle h rp (csr := CsrIn.quiet) rfl
  simp [Rs.tick, h, hw, hrest]

end States

/-- Settles O32, state by state. -/
theorem registerSpaceMachine : Obligations.RegisterSpaceMachine := by
  intro cfg r rp csr
  refine ⟨fun hs => ?_, fun hs => ?_, fun hs => ?_, fun hs => ?_, rsTick_setupDone⟩
  · refine ⟨by simp [Rs.port, hs], by simp [Rs.port, hs], by simp [Rs.port, hs], fun h => ?_, fun hd hp hw => ?_⟩
    · rw [rsTick_of_busy (h.elim busy_of_setup busy_of_strobe), advance_start hs h]
    · exact rsTick_idle ((busy_eq_false_iff r).2 ⟨hs, hd, hp⟩) rp hw
  · rw [rsTick_of_busy (busy_of_ne_start (by simp [hs])), advance_waitCmd hs]
    exact ⟨by simp [Rs.port, hs], rfl, fun h => by simp [h], fun h => by simp [h]⟩
  · rw [rsTick_of_busy (busy_of_ne_start (by simp [hs])), advance_waitWrite hs]
    refine ⟨by simp [Rs.port, hs], rfl, fun h hd => ?_, fun h hd hn => ?_, fun h hd hn => ?_, fun h => by simp [h]⟩
    · rw [if_pos h, wordTaken_of_setupDone hd]
    · rw [if_pos h, wordTaken_of_lastDie hd hn]
    · rw [if_pos h, wordTaken_of_die hd hn]
  · rw [rsTick_of_busy (busy_of_ne_start (by simp [hs])), advance_waitRead hs]
    exact ⟨by simp [Rs.port, hs], rfl, fun h => by simp [h], fun h => by simp [h]⟩

/-! ## The CSR word -/

section CsrWord

variable {r : Rs} {w : CsrWord}

/-- A mask that is all ones over a field leaves the field. -/
theorem extractLsb'_and_of_ones {m : CsrWord} {i n : Nat} (h : m.extractLsb' i n = BitVec.allOnes n) :
    (w &&& m).extractLsb' i n = w.extractLsb' i n := by
  rw [BitVec.extractLsb'_and, h, BitVec.and_allOnes]

/-- Bit 31 is not latched (43_registerspace.md R302). -/
theorem latch_masked (r : Rs) (w : CsrWord) : r.latch (w &&& 0x7FFFFFFF#32) = r.latch w := by
  simp [Rs.latch, extractLsb'_and_of_ones]

/-- The word read after an accepted write: the written one with bit 30 clear, bit 31 showing the strobe. -/
theorem csrWord_of_fields (w : CsrWord) (b : Bool) :
    csrWordOf b false (w.getLsbD 29) (w.extractLsb' 27 2) (w.extractLsb' 19 8) (w.extractLsb' 16 3) (w.extractLsb' 0 16)
      = if b then (w ||| 0x80000000#32) &&& 0xBFFFFFFF#32 else w &&& 0x3FFFFFFF#32 := by
  cases b
  · rw [if_neg Bool.false_ne_true, ← csrWord_eta (w &&& 0x3FFFFFFF#32)]
    simp [extractLsb'_and_of_ones]
  · rw [if_pos rfl, ← csrWord_eta ((w ||| 0x80000000#32) &&& 0xBFFFFFFF#32)]
    simp [extractLsb'_and_of_ones, BitVec.extractLsb'_or]

/-- After an accepted write RegisterSpace is busy exactly if the write had the strobe. -/
theorem busy_latch (h : r.busy = false) : (r.latch w).busy = w.getLsbD 30 := by
  obtain ⟨hs, hd, hp⟩ := (busy_eq_false_iff r).1 h
  simp [Rs.busy, hs, hd, hp]

end CsrWord

/-- Settles O33: `rsTick_of_write` and `latch_masked`. -/
theorem csrWriteLatchesOrIsDropped : Obligations.CsrWriteLatchesOrIsDropped := by
  intro r rp w
  refine ⟨fun hb => ?_, fun hb => ?_, ?_⟩
  · obtain ⟨-, -, hp⟩ := (busy_eq_false_iff r).1 hb
    rw [rsTick_of_write hb rfl, Rs.latch, hp, Bool.false_or]
  · rw [rsTick_of_busy hb, rsTick_of_busy hb]
  · cases hb : r.busy with
    | false => rw [rsTick_of_write hb rfl, rsTick_of_write hb rfl, latch_masked]
    | true => rw [rsTick_of_busy hb, rsTick_of_busy hb]

/-- Settles O34: the fields of the word, and `csrWord_of_fields` for what was latched. -/
theorem csrReadsBack : Obligations.CsrReadsBack := by
  intro r
  refine ⟨csrWord_busy .., csrWord_strobe .., csrWord_we .., csrWord_die .., csrWord_type .., csrWord_nr .., csrWord_value ..,
    fun rp w hb => ?_⟩
  rw [rsTick_of_write hb rfl, Rs.csrRdata, busy_latch hb]
  exact csrWord_of_fields w (w.getLsbD 30)

/-! ## When `rs.busy` changes -/

section Busy

variable {r : Rs} {rp : PortOut}

theorem busy_wordTaken :
    r.wordTaken.busy = false ↔ r.strobePending = false ∧ (r.setupDone = true ∨ r.dieNr = 0#2) := by
  cases hd : r.setupDone with
  | true => simp [wordTaken_of_setupDone hd, busy_eq_false_iff, hd]
  | false =>
    by_cases hn : r.dieNr = 0#2
    · simp [wordTaken_of_lastDie hd hn, busy_eq_false_iff, hn]
    · simp [wordTaken_of_die hd hn, busy_eq_false_iff, hd, hn]

/-- `rs.busy` falls with the word of an access after set-up, or with the last word of set-up (43_registerspace.md R296, R324). -/
theorem busy_advance (hb : r.busy = true) :
    (r.advance rp).busy = false ↔
      (r.state = .waitWrite ∧ rp.wdataReady = true ∧ r.strobePending = false ∧ (r.setupDone = true ∨ r.dieNr = 0#2)) ∨
      (r.state = .waitRead ∧ rp.rdataValid = true ∧ r.strobePending = false ∧ r.setupDone = true) := by
  cases hs : r.state with
  | start =>
    have hgo : r.setupDone = false ∨ r.strobePending = true := by simpa [Rs.busy, hs, imp_iff_not_or] using hb
    rw [advance_start hs hgo]
    simp [Rs.busy]
  | waitCmd =>
    rw [advance_waitCmd hs]
    cases rp.cmdReady <;> cases r.we <;> simp [Rs.busy, hs]
  | waitWrite =>
    rw [advance_waitWrite hs]
    cases rp.wdataReady <;> simp [hb, busy_wordTaken]
  | waitRead =>
    rw [advance_waitRead hs]
    cases rp.rdataValid <;> simp [hb, busy_eq_false_iff, and_comm]

end Busy

/-- Settles O35: not busy only a write with strobe matters, busy only the state machine. -/
theorem busyRisesAndFalls : Obligations.BusyRisesAndFalls := by
  intro r rp csr
  refine ⟨busy_eq_false_iff r, fun hb => ?_, fun hb => ?_⟩
  · cases hw : csr.we with
    | false => simp [rsTick_idle hb rp hw, hb]
    | true => simp [rsTick_of_write hb hw, busy_latch hb]
  · rw [rsTick_of_busy hb, busy_advance hb]

end Sys2Proof.Proofs
end

section
/-! Proofs about the CSR master and CORE (43_registerspace.md R302, R316, R319, R320; 70_reset_and_hazards.md R414): a CSR access is one
cycle, it reaches RegisterSpace alone, and a busy RegisterSpace does not look at it. -/

namespace Sys2Proof.Proofs

open Sys2Proof Sys2Proof.Machine Sys2Proof.Safety Sys2Proof.Laws

/-! ## The CSR inputs in a cycle -/

section Cycle

variable {cfg : Cfg} {k : CoreState} {i j : Inputs}

/-- Of a cycle without reset only RegisterSpace's next state depends on the CSR inputs. -/
theorem tick_csr (hr : i.reset = false) (csr : CsrIn) :
    k.tick cfg { i with csr := csr } = { k.tick cfg i with rs := k.rs.tick (k.rpOut i) csr } := by
  rw [tick_of_not_reset _ _ i hr]
  exact tick_of_not_reset _ _ _ hr

/-- Busy, RegisterSpace does not look at the CSR inputs, so CORE does not depend on them (43_registerspace.md R302). -/
theorem tick_csr_of_busy (hb : k.rs.busy = true) (csr : CsrIn) : k.tick cfg { i with csr := csr } = k.tick cfg i := by
  simp only [CoreState.tick, CoreState.advance, rsTick_of_busy hb]
  rfl

/-- During set-up CORE depends on reset and the PHY alone (43_registerspace.md R320; 60_exceptions.md R385). -/
theorem tick_of_setup (hd : k.rs.setupDone = false) (hr : i.reset = j.reset) (hp : i.phy = j.phy) :
    k.tick cfg i = k.tick cfg j := by
  calc k.tick cfg i = k.tick cfg { i with dp := j.dp } := (tick_dp_of_sel (sel_of_lockout (lockout_eq_true_iff.2 hd)) j.dp).symm
    _ = k.tick cfg { i with dp := j.dp, csr := j.csr } := (tick_csr_of_busy (busy_of_setup hd) j.csr).symm
    _ = k.tick cfg j := by rw [hr, hp]

end Cycle

/-- Settles O31: `tick_of_setup`, cycle by cycle. -/
theorem setUpIsNotInterruptible : Obligations.SetUpIsNotInterruptible := by
  intro cfg k is js hsame hsetup
  induction hsame generalizing k with
  | nil => rfl
  | cons hij _ ih =>
    obtain ⟨hr, hp⟩ := hij
    have hk : k.rs.setupDone = false := hsetup 0 (Nat.zero_lt_succ _)
    have hrest := ih _ fun n hn => hsetup (n + 1) (Nat.succ_lt_succ hn)
    rw [coreRun, hrest, tick_of_setup hk hr hp, coreRun]

/-! ## The CSR write of an instruction -/

/-- The machine with a CSR write presented. -/
def presentCsr (s : State) (w : CsrWord) : State := { s with req := some (.csrWrite w) }

/-- The machine with nothing presented. -/
def presentNone (s : State) : State := { s with req := none }

section Machine

variable {s : State} {w : CsrWord}

/-- The outputs of a cycle do not show the CSR inputs. -/
theorem outputs_presentCsr : (presentCsr s w).outputs = (presentNone s).outputs := rfl

/-- The cycle of a CSR write is the cycle without it but for CORE's next state and the record. -/
theorem clock_presentCsr :
    (presentCsr s w).clock =
      { (presentNone s).clock with
        core := (presentCsr s w).clock.core
        trace := s.trace ++ [{ inp := (presentCsr s w).inputs, out := (presentCsr s w).outputs }] } := rfl

/-- Not busy, the word is latched (43_registerspace.md R302). -/
theorem csrWrite_core (hb : s.core.rs.busy = false) (hr : s.scheduled.reset = false) :
    (presentCsr s w).clock.core = { (presentNone s).clock.core with rs := s.core.rs.latch w } := by
  rw [← rsTick_of_write (rp := s.core.rpOut (presentNone s).inputs) hb (csr := { we := true, wdata := w }) rfl]
  exact tick_csr (i := (presentNone s).inputs) hr _

/-- Busy, the write is lost (43_registerspace.md R302; 70_reset_and_hazards.md R414). -/
theorem csrWrite_core_of_busy (hb : s.core.rs.busy = true) : (presentCsr s w).clock.core = (presentNone s).clock.core :=
  tick_csr_of_busy (i := (presentNone s).inputs) hb _

/-- While busy a CSR write with strobe is the one cycle of its word. -/
theorem csrGo_of_busy (hb : s.core.rs.busy = true) : s.csrGo w = (presentCsr s w).clock := by
  rw [State.csrGo, if_pos hb]
  rfl

end Machine

/-- What a CSR instruction's word latches. -/
theorem latch_csrWordOf (r : Rs) (strobe we : Bool) (die : BitVec 2) (type : BitVec 8) (nr : BitVec 3) (value : HalfWord) :
    r.latch (csrWordOf false strobe we die type nr value) =
      { r with regValue := value, regNr := nr, regType := type, dieNr := die, we := we, strobePending := r.strobePending || strobe } := by
  simp [Rs.latch]

/-- Settles O39: `csrWrite_core`, the word having no strobe. -/
theorem csrLatchCompletes : Obligations.CsrLatchCompletes := by
  intro s we die type nr value hb hq
  obtain ⟨hreset, -⟩ := (quiet_iff _).1 hq
  have hcore := csrWrite_core (w := csrWordOf false false we die type nr value) hb hreset
  have hlatch := latch_csrWordOf s.core.rs false we die type nr value
  rw [Bool.or_false] at hlatch
  have hexec : exec (.csrLatch we die type nr value) s = .next (presentCsr s (csrWordOf false false we die type nr value)).clock := rfl
  generalize csrWordOf false false we die type nr value = w at hcore hlatch hexec
  have hrs : (presentCsr s w).clock.core.rs = s.core.rs.latch w := congrArg CoreState.rs hcore
  refine ⟨(presentCsr s w).clock, { inp := (presentCsr s w).inputs, out := (presentCsr s w).outputs }, hexec, hrs.trans hlatch, ?_, ?_,
    outputs_presentCsr⟩
  · rw [hrs, hlatch]
    exact hb
  · rw [hrs]
    exact clock_presentCsr.trans (by rw [hcore]; rfl)

/-- Settles O40: each of the three is the cycle of its word, and `csrWrite_core_of_busy`. -/
theorem csrWriteWhileBusyIsLost : Obligations.CsrWriteWhileBusyIsLost := by
  intro s we die type nr value hb _ i hi
  have hexec : ∃ w, exec i s = .next (presentCsr s w).clock := by
    simp only [List.mem_cons, List.not_mem_nil, or_false] at hi
    rcases hi with rfl | rfl | rfl
    · exact ⟨_, rfl⟩
    · exact ⟨_, congrArg _ (csrGo_of_busy hb)⟩
    · exact ⟨_, congrArg _ (csrGo_of_busy hb)⟩
  obtain ⟨w, hw⟩ := hexec
  exact ⟨_, hw, csrWrite_core_of_busy hb, rfl, rfl⟩

/-- Settles O43: a CSR read presents nothing to CORE. -/
theorem csrReadCompletes : Obligations.CsrReadCompletes := fun s =>
  ⟨{ inp := (presentNone s).inputs, out := (presentNone s).outputs }, rfl, rfl, rfl⟩

end Sys2Proof.Proofs
end

section
/-! Proofs about register accesses (43_registerspace.md R305 to R308, R317, R318, R320): with the register port connected the Controller
and RegisterSpace move together, from the command that waits to the word of the access. -/

namespace Sys2Proof.Proofs

open Sys2Proof Sys2Proof.Machine Sys2Proof.Safety Sys2Proof.Laws

/-! ## What holds in each cycle of a run -/

/-- `P` holds at the start of each of the cycles. -/
def Throughout (cfg : Cfg) (P : CoreState → Prop) : CoreState → List Inputs → Prop
  | _, [] => True
  | k, i :: is => P k ∧ Throughout cfg P (k.tick cfg i) is

section Throughout

variable {cfg : Cfg} {P : CoreState → Prop} {k : CoreState} {is js : List Inputs}

theorem throughout_append : Throughout cfg P k (is ++ js) ↔ Throughout cfg P k is ∧ Throughout cfg P (coreRun cfg k is) js := by
  induction is generalizing k with
  | nil => simp [Throughout, coreRun]
  | cons i is ih => simp only [List.cons_append, Throughout, coreRun, ih, and_assoc]

/-- What holds throughout the applied cycles holds of the machine in each of them. -/
theorem throughout_applied {s : State} {n : Nat} (h : Throughout s.cfg P s.core (applied n s)) {j : Nat} (hj : j < n) :
    P (cycles j s).core := by
  obtain ⟨m, rfl⟩ := Nat.exists_eq_add_of_lt hj
  rw [Nat.add_assoc, applied_add, throughout_append, ← cycles_core, applied] at h
  exact h.2.1

/-- What each cycle's record shows by its state, the records show. -/
theorem throughout_coreObs {Q : Obs → Prop} (hPQ : ∀ k i, P k → Q { inp := i, out := k.outputs cfg i })
    (h : Throughout cfg P k is) : ∀ o ∈ coreObs cfg k is, Q o := by
  induction is generalizing k with
  | nil => exact List.forall_mem_nil _
  | cons i is ih =>
    obtain ⟨hk, hrest⟩ := h
    exact List.forall_mem_cons.2 ⟨hPQ k i hk, ih hrest⟩

theorem Throughout.mono {Q : CoreState → Prop} (hPQ : ∀ k, P k → Q k) (h : Throughout cfg P k is) : Throughout cfg Q k is := by
  induction is generalizing k with
  | nil => trivial
  | cons i is ih => exact ⟨hPQ k h.1, ih h.2⟩

theorem coreObs_length (cfg : Cfg) (k : CoreState) (is : List Inputs) : (coreObs cfg k is).length = is.length := by
  induction is generalizing k with
  | nil => rfl
  | cons i is ih => rw [coreObs, List.length_cons, List.length_cons, ih]

end Throughout

/-! ## RegisterSpace at work -/

/-- RegisterSpace has the Controller's port and is busy; `done` says whether set-up is done. -/
structure AtWork (done : Bool) (k : CoreState) : Prop where
  sel : k.sel = true
  busy : k.rs.busy = true
  setup : k.rs.setupDone = done

/-- CORE goes from `k` to `k'` over the cycles `is`, RegisterSpace at work in each, driving `bs`. -/
structure Access (cfg : Cfg) (done : Bool) (k : CoreState) (is : List Inputs) (k' : CoreState) (bs : List BusOut) : Prop where
  run : coreRun cfg k is = k'
  bus : busOf (coreObs cfg k is) = bs
  atWork : Throughout cfg (AtWork done) k is

section Combine

variable {cfg : Cfg} {done : Bool} {k k' k'' : CoreState} {is js : List Inputs} {bs bs' : List BusOut}

theorem access_nil (cfg : Cfg) (done : Bool) (k : CoreState) : Access cfg done k [] k [] := ⟨rfl, rfl, trivial⟩

theorem Access.append (h : Access cfg done k is k' bs) (h' : Access cfg done k' js k'' bs') :
    Access cfg done k (is ++ js) k'' (bs ++ bs') where
  run := by rw [coreRun_append, h.run, h'.run]
  bus := by rw [coreObs_append, busOf_append, h.run, h.bus, h'.bus]
  atWork := throughout_append.2 ⟨h.atWork, by rw [h.run]; exact h'.atWork⟩

/-- The data client takes no part (42_crossbar.md R264). -/
theorem Access.noData (h : Access cfg done k is k' bs) :
    handedByData (coreObs cfg k is) = [] ∧ takenByData (coreObs cfg k is) = [] :=
  noWord_passes (throughout_coreObs (fun _ _ hk => (dpOut_of_sel hk.sel).2) h.atWork)

end Combine

/-! ## One cycle -/

section Cycle

variable {cfg : Cfg} {done : Bool} {k : CoreState} {i : Inputs}

/-- The register port stays connected, unless a boundary cycle after set-up finds no command (42_crossbar.md R270). -/
theorem tick_regSelect_of_sel (hsel : k.sel = true) (hr : i.reset = false)
    (hx : k.rs.setupDone = false ∨ k.ctl.state ≠ .idle ∨ k.rs.state = .waitCmd) : (k.tick cfg i).xb.regSelect = true := by
  cases hlock : k.lockout with
  | true => exact tick_regSelect_of_lockout hr hlock
  | false =>
    have hset : k.xb.regSelect = true := (sel_of_not_lockout hlock).symm.trans hsel
    rw [tick_regSelect hr, hlock, Bool.false_or]
    rcases hx with hd | hi | hw
    · exact absurd (hlock.symm.trans (lockout_eq_true_iff.2 hd)) Bool.false_ne_true
    · rw [boundary, mpOut_cmdReady_of_not_idle i hi]
      exact hset
    · simp [Rs.port, hw, hset]

/-- A cycle of RegisterSpace at work: the Controller sees it, and it sees the Controller. -/
theorem access_cycle (h : AtWork done k) (hr : i.reset = false)
    (hx : k.rs.setupDone = false ∨ k.ctl.state ≠ .idle ∨ k.rs.state = .waitCmd) :
    Access cfg done k [i]
      { ctl := k.ctl.tick cfg (k.rs.port cfg) i.phy, xb := { regSelect := true }, rs := k.rs.advance (k.mpOut i) }
      [k.ctl.bus cfg (k.rs.port cfg)] where
  run := by
    have hxb := congrArg Xb.mk (tick_regSelect_of_sel (cfg := cfg) h.sel hr hx)
    rw [tick_of_not_reset _ _ _ hr] at hxb
    rw [coreRun, coreRun, tick_of_not_reset _ _ _ hr, ← hxb, ← mpIn_of_sel h.sel (i := i), ← rpOut_of_sel h.sel,
      ← rsTick_of_busy h.busy (csr := i.csr)]
    rfl
  bus := by rw [coreObs, coreObs, busOf, List.map_singleton, CoreState.outputs, mpIn_of_sel h.sel]
  atWork := ⟨h, trivial⟩

end Cycle

/-! ## A leg of the Controller while RegisterSpace waits -/

section Waiting

variable {cfg : Cfg} {done : Bool} {k : CoreState} {c c' : Ctl} {i : PortIn × PhyIn} {is : List (PortIn × PhyIn)} {bs : List BusOut}

/-- A leg in which no word passes is its first cycle and such a leg. -/
theorem Leg.uncons (hl : Leg cfg c (i :: is) c' bs [] []) :
    c.state ≠ .idle ∧ handedWord i.1 (c.portOut i.2) = none ∧ takenWord i.1 (c.portOut i.2) = none ∧
      ∃ bs', bs = c.bus cfg i.1 :: bs' ∧ Leg cfg (c.tick cfg i.1 i.2) is c' bs' [] [] := by
  obtain ⟨hrun, hbus, ⟨hs, hfly⟩, hhand, htake⟩ := hl
  obtain ⟨hhand, hhand'⟩ := List.forall_mem_cons.1 (List.filterMap_eq_nil_iff.1 hhand)
  obtain ⟨htake, htake'⟩ := List.forall_mem_cons.1 (List.filterMap_eq_nil_iff.1 htake)
  exact ⟨hs, hhand, htake, _, hbus.symm, hrun, rfl, hfly, List.filterMap_eq_nil_iff.2 hhand', List.filterMap_eq_nil_iff.2 htake'⟩

/-- RegisterSpace waits while nothing is transferred (43_registerspace.md R305 to R308). -/
theorem advance_of_noTransfer {r : Rs} {o : PortOut} (hs : r.state ≠ .start) (hc : o.cmdReady = false)
    (hh : handedWord (r.port cfg) o = none) (ht : takenWord (r.port cfg) o = none) : r.advance o = r := by
  cases hst : r.state with
  | start => exact absurd hst hs
  | waitCmd => rw [advance_waitCmd hst, hc, if_neg Bool.false_ne_true]
  | waitWrite =>
    have hw : o.wdataReady = false := by simpa [handedWord, Rs.port, hst] using hh
    rw [advance_waitWrite hst, hw, if_neg Bool.false_ne_true]
  | waitRead =>
    have hv : o.rdataValid = false := by simpa [takenWord, Rs.port, hst] using ht
    rw [advance_waitRead hst, hv, if_neg Bool.false_ne_true]

/-- A leg of the Controller in which RegisterSpace waits and no word passes is a run of CORE. -/
theorem access_leg {is : List Inputs} (hx : k.xb.regSelect = true) (hw : k.rs.state ≠ .start) (hdone : k.rs.setupDone = done)
    (hr : ∀ i ∈ is, i.reset = false) (hl : Leg cfg k.ctl (waitingInputs cfg k.rs is) c' bs [] []) :
    Access cfg done k is { k with ctl := c' } bs := by
  induction is generalizing k bs with
  | nil =>
    obtain ⟨hrun, hbus, -⟩ := hl
    subst hrun hbus
    exact access_nil cfg done k
  | cons i is ih =>
    obtain ⟨hri, hr⟩ := List.forall_mem_cons.1 hr
    obtain ⟨hs, hhand, htake, bs', rfl, hrest⟩ := hl.uncons
    have hcycle := access_cycle (cfg := cfg) ⟨sel_of_regSelect hx, busy_of_ne_start hw, hdone⟩ hri (.inr (.inl hs))
    rw [advance_of_noTransfer (o := k.mpOut i) hw (mpOut_cmdReady_of_not_idle i hs) hhand htake, ← hx] at hcycle
    exact hcycle.append (ih (k := { k with ctl := k.ctl.tick cfg (k.rs.port cfg) i.phy }) hx hw hdone hr hrest)

end Waiting

/-! ## The word of an access -/

/-- RegisterSpace's command waits for an idle Controller, the register port being connected. -/
structure Requesting (k : CoreState) : Prop where
  idle : k.ctl.state = .idle
  dlycnt : k.ctl.dlycnt = 0#8
  configured : k.ctl.cfgPending = false
  sel : k.sel = true
  waits : k.rs.state = .waitCmd

/-- CORE during the access whose command waited in `k`: the Controller in the state `st`, RegisterSpace waiting to pass its word. -/
def inAccess (cfg : Cfg) (k : CoreState) (st : CtlState) : CoreState :=
  { ctl := { k.ctl with state := st, dlycnt := 0#8, ca := caOf (k.rs.port cfg).cmd, autoTxn := false }
    xb := { regSelect := true }
    rs := { k.rs with state := if k.rs.we then .waitWrite else .waitRead } }

/-- The Controller after the word of a register write: it ends the write (41_controller.md R205, R214). -/
def ctlAfterWord (cfg : Cfg) (c : Ctl) (cmd : Cmd) : Ctl :=
  { c with state := .endWrite, dlycnt := BitVec.ofNat 8 cfg.txLatency, ca := caOf cmd, autoTxn := false }

section Word

variable {cfg : Cfg} {done : Bool} {k : CoreState} {is pre ws : List Inputs} {i m w : Inputs} {st : CtlState}

theorem Requesting.atWork (h : Requesting k) (hdone : k.rs.setupDone = done) : AtWork done k :=
  ⟨h.sel, busy_of_ne_start (by simp [h.waits]), hdone⟩

theorem inAccess_waits : (inAccess cfg k st).rs.state ≠ .start := by
  simp only [inAccess]
  split <;> exact nofun

theorem inAccess_atWork (hdone : k.rs.setupDone = done) : AtWork done (inAccess cfg k st) :=
  ⟨rfl, busy_of_ne_start inAccess_waits, hdone⟩

/-- The launch of the command that waits (41_controller.md R200; 43_registerspace.md R305). -/
theorem access_launch (h : Requesting k) (hdone : k.rs.setupDone = done) (hr : i.reset = false) (hl : i.phy.pllLocked = true) :
    Access cfg done k [i] (inAccess cfg k .caWord0) [BusOut.idle] := by
  have hready : (k.mpOut i).cmdReady = true := mpOut_cmdReady_iff.2 ⟨h.idle, (gate_iff _).2 h.dlycnt, hl, h.configured⟩
  have hctl : k.ctl.tick cfg (k.rs.port cfg) i.phy = (inAccess cfg k .caWord0).ctl := by
    simp [tick_idle h.idle h.dlycnt, Ctl.tickIdle, hl, h.configured, Rs.port, h.waits, inAccess, Ctl.launch, h.dlycnt]
  have hcycle := access_cycle (cfg := cfg) (h.atWork hdone) hr (.inr (.inr h.waits))
  rwa [hctl, advance_waitCmd h.waits, if_pos hready, bus_of_resting (.inl h.idle)] at hcycle

/-- An access up to its word: the launch, and a leg in which no word passes. -/
theorem access_toWord {bs : List BusOut} (h : Requesting k) (hdone : k.rs.setupDone = done) (hl : i.phy.pllLocked = true)
    (hr : ∀ j ∈ i :: is, j.reset = false)
    (hleg : Leg cfg (inAccess cfg k .caWord0).ctl (waitingInputs cfg (inAccess cfg k .caWord0).rs is) (inAccess cfg k st).ctl bs [] []) :
    Access cfg done k (i :: is) (inAccess cfg k st) (BusOut.idle :: bs) := by
  obtain ⟨hri, hr⟩ := List.forall_mem_cons.1 hr
  exact (access_launch h hdone hri hl).append (access_leg rfl inAccess_waits hdone hr hleg)

theorem inAccess_caRead : caRead (inAccess cfg k st).ctl.ca = !k.rs.we := caRead_caOf _

theorem inAccess_caReg : caReg (inAccess cfg k st).ctl.ca = true := caReg_caOf _

/-- `SELECT_OP` takes RegisterSpace's word, which is the last (41_controller.md R205; 43_registerspace.md R306). -/
theorem access_selectOp (hdone : k.rs.setupDone = done) (hwe : k.rs.we = true) (hr : i.reset = false) :
    Access cfg done (inAccess cfg k .selectOp) [i]
      { ctl := ctlAfterWord cfg k.ctl (k.rs.port cfg).cmd, xb := { regSelect := true }, rs := k.rs.wordTaken }
      [BusOut.drive k.rs.regValue] := by
  have hw : (inAccess cfg k .selectOp).rs.state = .waitWrite := if_pos hwe
  have hvalid : ((inAccess cfg k .selectOp).rs.port cfg).wdataValid = true := by simp [Rs.port, hw]
  have hpath : (inAccess cfg k .selectOp).ctl.regWritePath = true := by
    rw [Ctl.regWritePath, inAccess_caRead, inAccess_caReg, hwe]
    rfl
  have hready : ((inAccess cfg k .selectOp).mpOut i).wdataReady = true :=
    (congrArg (fun b => true && b && true) hpath).trans rfl
  have hctl : (inAccess cfg k .selectOp).ctl.tick cfg ((inAccess cfg k .selectOp).rs.port cfg) i.phy
      = ctlAfterWord cfg k.ctl (k.rs.port cfg).cmd := by
    rw [tick_selectOp rfl rfl, Ctl.tickSelectOp, inAccess_caRead, inAccess_caReg, hvalid, hwe]
    rfl
  have hbus : (inAccess cfg k .selectOp).ctl.bus cfg ((inAccess cfg k .selectOp).rs.port cfg) = BusOut.drive k.rs.regValue := by
    refine (if_pos hpath).trans ?_
    rw [BusOut.regWord, hvalid]
    rfl
  have hcycle := access_cycle (cfg := cfg) (k := inAccess cfg k .selectOp) (inAccess_atWork hdone) hr (.inr (.inl nofun))
  rwa [hctl, hbus, advance_waitWrite hw, if_pos hready] at hcycle

/-- A register write of one word, from the command that waits to the word (43_registerspace.md R317, R320). -/
theorem access_wordWrite (h : Requesting k) (hdone : k.rs.setupDone = done) (hwe : k.rs.we = true) (hlen : is.length = 3)
    (hr : ∀ j ∈ i :: (is ++ [w]), j.reset = false) (hl : i.phy.pllLocked = true) :
    Access cfg done k (i :: (is ++ [w]))
      { ctl := ctlAfterWord cfg k.ctl (k.rs.port cfg).cmd, xb := { regSelect := true }, rs := k.rs.wordTaken }
      (wordWriteBus (caOf (k.rs.port cfg).cmd) k.rs.regValue) := by
  obtain ⟨hris, hrw⟩ := List.forall_mem_append (l₁ := i :: is).1 hr
  have hpacket := leg_packet cfg (c := (inAccess cfg k .caWord0).ctl) rfl rfl
    (pk := waitingInputs cfg (inAccess cfg k .caWord0).rs is) (by rw [waitingInputs, List.length_map, hlen])
  exact (access_toWord (st := .selectOp) h hdone hl hris hpacket).append
    (access_selectOp hdone hwe (hrw w (List.mem_singleton_self w)))

/-- The first strobed cycle of `READ` gives RegisterSpace its word, which is the last (41_controller.md R218; 43_registerspace.md
R308). -/
theorem access_strobed (hdone : k.rs.setupDone = done) (hwe : k.rs.we = false) (hr : i.reset = false)
    (hstrobe : i.phy.rwdsIn.getLsbD 1 = true) :
    Access cfg done (inAccess cfg k .read) [i]
      { ctl := (inAccess cfg k .endRead).ctl, xb := { regSelect := true }
        rs := { k.rs with regValue := i.phy.dqIn, state := .start } } [BusOut.listen] := by
  have hw : (inAccess cfg k .read).rs.state = .waitRead := if_neg (ne_true_of_eq_false hwe)
  have hvalid : ((inAccess cfg k .read).ctl.portOut i.phy).rdataValid = true := hstrobe
  have hctl : (inAccess cfg k .read).ctl.tick cfg ((inAccess cfg k .read).rs.port cfg) i.phy = (inAccess cfg k .endRead).ctl := by
    have htaken : ((inAccess cfg k .read).rs.port cfg).rdataReady = true := by simp [Rs.port, hw]
    rw [tick_read rfl rfl, Ctl.tickRead, hvalid, htaken]
    rfl
  have hcycle := access_cycle (cfg := cfg) (k := inAccess cfg k .read) (inAccess_atWork hdone) hr (.inr (.inl nofun))
  rwa [hctl, advance_waitRead hw, if_pos (show ((inAccess cfg k .read).mpOut i).rdataValid = true from hvalid)] at hcycle

/-- The cycles of `READ` before the first strobe. -/
theorem leg_unstrobed {c : Ctl} {r : Rs} (hs : c.state = .read) (hd : c.dlycnt = 0#8)
    (hws : ∀ i ∈ ws, i.phy.rwdsIn.getLsbD 1 = false) :
    Leg cfg c (waitingInputs cfg r ws) c (List.replicate ws.length BusOut.listen) [] [] := by
  have hnot : ∀ x ∈ waitingInputs cfg r ws, x.2.rwdsIn.getLsbD 1 = false := List.forall_mem_map.2 hws
  have hleg := leg_reading (cfg := cfg) hs hd (ws := waitingInputs cfg r ws) fun x hx => by rw [takesLast, hnot x hx]; rfl
  have hwords : strobedWords (waitingInputs cfg r ws) = [] :=
    List.filterMap_eq_nil_iff.2 fun x hx => by rw [strobedWord, hnot x hx]; rfl
  rwa [hwords, waitingInputs, List.length_map] at hleg

/-- A register read, from the command that waits to its first strobed word (43_registerspace.md R318): `m` is the cycle of the latency
sample, `w` the strobed cycle. -/
theorem access_wordRead (hwf : cfg.wf = true) (h : Requesting k) (hdone : k.rs.setupDone = done) (hwe : k.rs.we = false)
    (hr : ∀ j ∈ i :: (pre ++ ws ++ [w]), j.reset = false) (hl : i.phy.pllLocked = true) (hm : pre[4 + cfg.selDly]? = some m)
    (hpre : pre.length = 2 + cfg.lat (longLatency cfg m.phy) + cfg.txLatency + cfg.rxLatency)
    (hws : ∀ j ∈ ws, j.phy.rwdsIn.getLsbD 1 = false) (hw : w.phy.rwdsIn.getLsbD 1 = true) :
    Access cfg done k (i :: (pre ++ ws ++ [w]))
      { ctl := { k.ctl with state := .endRead, dlycnt := 0#8, ca := caOf (k.rs.port cfg).cmd, autoTxn := false }
        xb := { regSelect := true }, rs := { k.rs with regValue := w.phy.dqIn, state := .start } }
      (readBus (caOf (k.rs.port cfg).cmd) (cfg.lat (longLatency cfg m.phy) + cfg.txLatency + cfg.rxLatency + ws.length - 1)) := by
  obtain ⟨hris, hrw⟩ := List.forall_mem_append (l₁ := i :: (pre ++ ws)).1 hr
  have hopening := leg_readOpening (c := (inAccess cfg k .caWord0).ctl) (pre := waitingInputs cfg (inAccess cfg k .caWord0).rs pre)
    (m := ((inAccess cfg k .caWord0).rs.port cfg, m.phy)) hwf rfl rfl (by rw [inAccess_caRead, hwe]; rfl)
    (by simp [waitingInputs, hm]) (by rw [waitingInputs, List.length_map, hpre])
  have hleg := hopening.append (leg_unstrobed (r := (inAccess cfg k .caWord0).rs) rfl rfl hws)
  rw [waitingInputs, waitingInputs, ← List.map_append] at hleg
  have haccess := (access_toWord (st := .read) h hdone hl hris hleg).append
    (access_strobed hdone hwe (hrw w (List.mem_singleton_self w)) hw)
  have hcount : cfg.lat (longLatency cfg m.phy) + cfg.txLatency + cfg.rxLatency + ws.length - 1 = (pre.length - 4 + ws.length) + 1 := by
    have := (List.getElem?_eq_some_iff.1 hm).1
    omega
  rw [List.length_map] at haccess
  rw [readBus, hcount, List.replicate_succ']
  simpa [inAccess] using haccess

end Word

end Sys2Proof.Proofs
end

section
/-! Proofs about RegisterSpace's start-up writes (43_registerspace.md R320; 70_reset_and_hazards.md R403, R404): one register write per
die, downwards, the last of which ends set-up. -/

namespace Sys2Proof.Proofs

open Sys2Proof Sys2Proof.Machine Sys2Proof.Safety Sys2Proof.Laws

/-! ## One die, all dies -/

/-- RegisterSpace's command for its die waits for an idle Controller, set-up not being done. -/
structure SettingUp (k : CoreState) : Prop where
  requesting : Requesting k
  setup : k.rs.setupDone = false
  noStrobe : k.rs.strobePending = false
  writes : k.rs.we = true

/-- The command for a die (43_registerspace.md R291). -/
def dieCmd (cfg : Cfg) (r : Rs) (die : BitVec 2) : Cmd := regCmd cfg true die r.regType r.regNr

/-- CORE after the write of a die other than the last (43_registerspace.md R306). -/
def afterDie (cfg : Cfg) (k : CoreState) : CoreState :=
  { ctl := { k.ctl with state := .idle, dlycnt := 0#8, ca := caOf (dieCmd cfg k.rs k.rs.dieNr), autoTxn := false }
    xb := { regSelect := true }
    rs := { k.rs with state := .waitCmd, dieNr := k.rs.dieNr - 1#2 } }

/-- CORE with the last word of set-up transferred, the Controller still ending the write (43_registerspace.md R306). -/
def afterSetup (cfg : Cfg) (k : CoreState) : CoreState :=
  { ctl := ctlAfterWord cfg k.ctl (dieCmd cfg k.rs 0#2), xb := { regSelect := true }
    rs := { k.rs with state := .start, setupDone := true, dieNr := 0#2 } }

/-- What set-up puts on the bus from the die `n` on. -/
def setupBus (cfg : Cfg) (r : Rs) (n : Nat) : List BusOut :=
  (diesDown n).dropLast.flatMap (fun d => fullWriteBus cfg (caOf (dieCmd cfg r (BitVec.ofNat 2 d))) r.regValue)
    ++ wordWriteBus (caOf (dieCmd cfg r 0#2)) r.regValue

theorem setupBus_succ (cfg : Cfg) (r : Rs) (n : Nat) :
    setupBus cfg r (n + 1) = fullWriteBus cfg (caOf (dieCmd cfg r (BitVec.ofNat 2 (n + 1)))) r.regValue ++ setupBus cfg r n := by
  have hne : diesDown n ≠ [] := by cases n <;> exact nofun
  rw [setupBus, diesDown, List.dropLast_cons_of_ne_nil hne, List.flatMap_cons, List.append_assoc, setupBus]

section Dies

variable {cfg : Cfg} {k : CoreState} {is : List Inputs}

theorem SettingUp.cmd (h : SettingUp k) : (k.rs.port cfg).cmd = dieCmd cfg k.rs k.rs.dieNr := by rw [dieCmd, ← h.writes]; rfl

theorem SettingUp.afterDie (h : SettingUp k) : SettingUp (afterDie cfg k) :=
  ⟨⟨rfl, rfl, h.requesting.configured, rfl, rfl⟩, h.setup, h.noStrobe, h.writes⟩

/-- The cycles of a register write of one word, and those after it. -/
theorem exists_wordCycles {n : Nat} (hlen : is.length = 5 + n) :
    ∃ i pk w post, is = i :: (pk ++ [w]) ++ post ∧ pk.length = 3 ∧ post.length = n := by
  match is, hlen with
  | i :: a :: b :: c :: w :: post, hlen => exact ⟨i, [a, b, c], w, post, rfl, rfl, by simp at hlen; omega⟩
  | [], hlen | [_], hlen | [_, _], hlen | [_, _, _], hlen | [_, _, _, _], hlen => simp at hlen; omega

/-- During set-up RegisterSpace puts up the next command while the Controller ends the write (41_controller.md R214, R222;
43_registerspace.md R304). -/
theorem access_writeEnd (hwf : cfg.wf = true) (hs : k.ctl.state = .endWrite) (hd : k.ctl.dlycnt = BitVec.ofNat 8 cfg.txLatency)
    (ha : k.ctl.autoTxn = false) (hstart : k.rs.state = .start) (hsetup : k.rs.setupDone = false) (hstrobe : k.rs.strobePending = false)
    (hlen : is.length = cfg.txLatency + 2) (hr : ∀ j ∈ is, j.reset = false) :
    Access cfg false k is
      { ctl := { k.ctl with state := .idle, dlycnt := 0#8 }, xb := { regSelect := true }, rs := { k.rs with state := .waitCmd } }
      (writeEnd cfg) := by
  cases is with
  | nil => exact absurd hlen (by simp)
  | cons i is =>
    obtain ⟨hri, hr⟩ := List.forall_mem_cons.1 hr
    have hleg := leg_writeEnd (cfg := cfg) (post := (k.rs.port cfg, i.phy) :: waitingInputs cfg { k.rs with state := .waitCmd } is)
      (loadsFit_of_wf hwf) hs hd (by simpa [waitingInputs] using hlen)
    rw [tickEndRead_of_client (by exact ha)] at hleg
    obtain ⟨-, -, -, bs, hbs, hrest⟩ := hleg.uncons
    have hadvance : k.rs.advance (k.mpOut i) = { k.rs with state := .waitCmd } := by rw [advance_start hstart (.inl hsetup), ← hstrobe]
    have hcycle := access_cycle (cfg := cfg) ⟨sel_of_lockout (lockout_eq_true_iff.2 hsetup), busy_of_setup hsetup, hsetup⟩ hri
      (.inl hsetup)
    rw [hadvance] at hcycle
    rw [hbs]
    exact hcycle.append (access_leg rfl nofun hsetup hr hrest)

theorem access_die (hwf : cfg.wf = true) (h : SettingUp k) (hdie : k.rs.dieNr ≠ 0#2) (hlen : is.length = 7 + cfg.txLatency)
    (hr : ∀ j ∈ is, j.reset = false) (hl : ∀ j ∈ is, j.phy.pllLocked = true) :
    Access cfg false k is (afterDie cfg k) (fullWriteBus cfg (caOf (dieCmd cfg k.rs k.rs.dieNr)) k.rs.regValue) := by
  obtain ⟨i, pk, w, post, rfl, hpk, hpost⟩ := exists_wordCycles (is := is) (n := cfg.txLatency + 2) (by omega)
  obtain ⟨hrw, hrpost⟩ := List.forall_mem_append.1 hr
  have hword := access_wordWrite (cfg := cfg) h.requesting h.setup h.writes hpk hrw (hl i (by simp))
  rw [h.cmd, wordTaken_of_die h.setup hdie] at hword
  exact hword.append (access_writeEnd hwf rfl rfl rfl rfl h.setup h.noStrobe hpost hrpost)

theorem access_lastDie (h : SettingUp k) (hdie : k.rs.dieNr = 0#2) (hlen : is.length = 5) (hr : ∀ j ∈ is, j.reset = false)
    (hl : ∀ j ∈ is, j.phy.pllLocked = true) :
    Access cfg false k is (afterSetup cfg k) (wordWriteBus (caOf (dieCmd cfg k.rs 0#2)) k.rs.regValue) := by
  obtain ⟨i, pk, w, post, rfl, hpk, hpost⟩ := exists_wordCycles (n := 0) hlen
  obtain rfl := List.length_eq_zero_iff.1 hpost
  rw [List.append_nil] at hr hl ⊢
  have hword := access_wordWrite (cfg := cfg) h.requesting h.setup h.writes hpk hr (hl i (by simp))
  rw [h.cmd, wordTaken_of_lastDie h.setup hdie] at hword
  rw [afterSetup, ← hdie]
  exact hword

/-- Set-up from the die `n` on. -/
theorem access_setup (hwf : cfg.wf = true) {n : Nat} (h : SettingUp k) (hdie : k.rs.dieNr.toNat = n)
    (hlen : is.length = n * (7 + cfg.txLatency) + 5) (hr : ∀ j ∈ is, j.reset = false) (hl : ∀ j ∈ is, j.phy.pllLocked = true) :
    Access cfg false k is (afterSetup cfg k) (setupBus cfg k.rs n) := by
  induction n generalizing k is with
  | zero => exact access_lastDie h (BitVec.eq_of_toNat_eq hdie) (by simpa using hlen) hr hl
  | succ n ih =>
    rw [Nat.succ_mul] at hlen
    obtain ⟨as, bs, rfl, has, hbs⟩ :
        ∃ as bs, is = as ++ bs ∧ as.length = 7 + cfg.txLatency ∧ bs.length = n * (7 + cfg.txLatency) + 5 :=
      ⟨is.take (7 + cfg.txLatency), is.drop (7 + cfg.txLatency), (List.take_append_drop _ _).symm, by rw [List.length_take]; omega,
        by rw [List.length_drop]; omega⟩
    obtain ⟨hras, hrbs⟩ := List.forall_mem_append.1 hr
    obtain ⟨hlas, hlbs⟩ := List.forall_mem_append.1 hl
    have hne : k.rs.dieNr ≠ 0#2 := fun h0 => by simp [h0] at hdie
    have hnext : (afterDie cfg k).rs.dieNr.toNat = n := by
      have : (k.rs.dieNr - 1#2).toNat = n := by bv_omega
      exact this
    have hthis : BitVec.ofNat 2 (n + 1) = k.rs.dieNr := by rw [← hdie, BitVec.ofNat_toNat, BitVec.setWidth_eq]
    rw [setupBus_succ, hthis]
    exact (access_die hwf h hne has hras hlas).append (ih h.afterDie hnext hbs hrbs hlbs)

end Dies

/-! ## The machine -/

/-- A presented command is held back while the data port is not ready, a CSR access is over after one cycle. -/
theorem cycles_req_waiting {s : State} {n : Nat} (h : ∀ j, j < n + 1 → (cycles j s).outputs.dp.cmdReady = false) :
    (cycles (n + 1) s).req = waiting s.req := by
  induction n with
  | zero => exact reqAfter_of_not_ready (h 0 (Nat.zero_lt_succ _))
  | succ n ih =>
    rw [cycles_succ', clock_req, reqAfter_of_not_ready (h (n + 1) (Nat.lt_succ_self _)), ih fun j hj => h j (Nat.lt_succ_of_lt hj),
      waiting_waiting]

/-- Settles O45: set-up is an access over whatever is applied; the machine stops when it is done. -/
theorem rsSetupCompletes : Obligations.RsSetupCompletes := by
  intro s h rest hwf hidle hd hpending hsetup hwaits hstrobe hwe hs hlen hr hl
  have hstart : SettingUp s.core :=
    ⟨⟨hidle, hd, hpending, sel_of_lockout (lockout_eq_true_iff.2 hsetup), hwaits⟩, hsetup, hstrobe, hwe⟩
  have haccess := access_setup (cfg := s.cfg) (is := applied h.length s) hwf hstart rfl (by rw [applied_length, hlen])
    (applied_noReset hs hr) (applied_locked hs hl)
  have hcore : (cycles h.length s).core = afterSetup s.cfg s.core := by rw [cycles_core, haccess.run]
  have hcycles (j : Nat) (hj : j < h.length) : AtWork false (cycles j s).core := throughout_applied haccess.atWork hj
  have hexec : runWhile (fun t => !t.core.rs.setupDone) s.horizon s = cycles h.length s :=
    runWhile_eq_cycles (fun j hj => by rw [(hcycles j hj).setup]; rfl) (by rw [hcore]; rfl) (by simp [State.horizon, hs])
  obtain ⟨hhand, htake⟩ := haccess.noData
  have hreq : (cycles h.length s).req = waiting s.req := by
    obtain ⟨n, hn⟩ : ∃ n, h.length = n + 1 := ⟨_, hlen⟩
    rw [hn] at hcycles ⊢
    exact cycles_req_waiting fun j hj => (dpOut_of_sel (hcycles j hj).sel).1
  refine ⟨coreObs s.cfg s.core (applied h.length s), ?_, haccess.bus, hhand, htake⟩
  rw [exec, execRsSetup, hexec, cycles_eq_of_core hcore, hreq, hs, List.drop_left]
  rfl

end Sys2Proof.Proofs
end

section
/-! Proofs about the CSR writes with strobe (43_registerspace.md R312, R317, R318): three cycles from the write to the command that
waits, then the access. -/

namespace Sys2Proof.Proofs

open Sys2Proof Sys2Proof.Machine Sys2Proof.Safety Sys2Proof.Laws

/-! ## From the write to the command -/

/-- A cycle with the PHY locked that neither resets nor offers a data command. -/
structure CalmCycle (i : Inputs) : Prop where
  noReset : i.reset = false
  locked : i.phy.pllLocked = true
  noCommand : i.dp.cmdValid = false

/-- The Controller is idle and configured, and set-up is done. -/
structure Started (k : CoreState) : Prop where
  idle : k.ctl.state = .idle
  dlycnt : k.ctl.dlycnt = 0#8
  configured : k.ctl.cfgPending = false
  setup : k.rs.setupDone = true

/-- CORE with a register command waiting for the word `w` written to the CSR, the register port connected. -/
def requested (k : CoreState) (w : CsrWord) : CoreState :=
  { ctl := k.ctl, xb := { regSelect := true }, rs := { k.rs.latch w with state := .waitCmd, strobePending := false } }

section Request

variable {cfg : Cfg} {k : CoreState} {i i₀ i₁ i₂ : Inputs} {w : CsrWord}

/-- With an idle Controller and no command for it, a cycle moves RegisterSpace, and gives it the port if its command waits
(42_crossbar.md R270, R272). -/
theorem Started.tick (h : Started k) (hc : CalmCycle i) (hv : k.sel = false ∨ k.rs.state ≠ .waitCmd) :
    k.tick cfg i =
      { ctl := k.ctl, xb := { regSelect := (k.rs.port cfg).cmdValid }, rs := k.rs.tick (k.rpOut i) i.csr } := by
  have hboundary : boundary k i = true := mpOut_cmdReady_iff.2 ⟨h.idle, (gate_iff _).2 h.dlycnt, hc.locked, h.configured⟩
  have hvalid : (k.mpIn cfg i).cmdValid = false := by
    cases hsel : k.sel with
    | false => simp [mpIn_of_not_sel hsel, hc.noCommand]
    | true => simpa [mpIn_of_sel hsel, Rs.port, hsel] using hv
  have hctl : k.ctl.tick cfg (k.mpIn cfg i) i.phy = k.ctl := by
    simp [tick_idle h.idle h.dlycnt, Ctl.tickIdle, hc.locked, h.configured, hvalid]
  have hxb := congrArg Xb.mk (tick_regSelect_of_boundary (cfg := cfg) hc.noReset (by simp [CoreState.lockout, h.setup]) hboundary)
  rw [tick_of_not_reset _ _ _ hc.noReset] at hxb ⊢
  rw [← hctl, ← hxb]
  rfl

/-- The data client passes no word while the Controller is idle. -/
theorem noWord_of_idle (hs : k.ctl.state = .idle) : NoWord (k.outputs cfg i).dp := by
  obtain ⟨hw, hr⟩ : NoWord (k.mpOut i) := noWord_of_silentState (.inl hs) _
  simp [NoWord, CoreState.outputs, CoreState.dpOut, xbToData, hw, hr]

theorem Started.of_rs {r : Rs} {x : Xb} (h : Started k) (hr : r.setupDone = true) : Started { ctl := k.ctl, xb := x, rs := r } :=
  ⟨h.idle, h.dlycnt, h.configured, hr⟩

/-- The write is latched (43_registerspace.md R302). -/
theorem Started.tick_latch (h : Started k) (hc : CalmCycle i) (hb : k.rs.busy = false) (hw : i.csr = { we := true, wdata := w }) :
    k.tick cfg i = { ctl := k.ctl, xb := { regSelect := false }, rs := k.rs.latch w } := by
  obtain ⟨hs, -, -⟩ := (busy_eq_false_iff k.rs).1 hb
  rw [h.tick hc (.inr (by simp [hs])), rsTick_of_write hb (by rw [hw]), hw]
  simp [Rs.port, hs]

/-- The strobe puts up the command (43_registerspace.md R304). -/
theorem Started.tick_strobe (h : Started k) (hc : CalmCycle i) (hs : k.rs.state = .start) (hp : k.rs.strobePending = true) :
    k.tick cfg i =
      { ctl := k.ctl, xb := { regSelect := false }, rs := { k.rs with state := .waitCmd, strobePending := false } } := by
  rw [h.tick hc (.inr (by simp [hs])), rsTick_of_busy (busy_of_strobe hp), advance_start hs (.inr hp)]
  simp [Rs.port, hs]

/-- The command gets the port (42_crossbar.md R272). -/
theorem Started.tick_connect (h : Started k) (hc : CalmCycle i) (hs : k.rs.state = .waitCmd) (hx : k.xb.regSelect = false) :
    k.tick cfg i = { k with xb := { regSelect := true } } := by
  have hsel : k.sel = false := by simp [CoreState.sel, CoreState.lockout, hx, h.setup]
  rw [h.tick hc (.inl hsel), rsTick_of_busy (busy_of_ne_start (by simp [hs])), advance_waitCmd hs, (rpOut_of_not_sel hsel).1]
  simp [Rs.port, hs]

/-- The word `w`, with strobe, is written to the CSR in `i₀`, with RegisterSpace not busy; that cycle and the two after it are calm. -/
structure Strobed (k : CoreState) (w : CsrWord) (i₀ i₁ i₂ : Inputs) : Prop where
  started : Started k
  notBusy : k.rs.busy = false
  strobe : w.getLsbD 30 = true
  write : i₀.csr = { we := true, wdata := w }
  calm₀ : CalmCycle i₀
  calm₁ : CalmCycle i₁
  calm₂ : CalmCycle i₂

/-- From a CSR write with strobe to the command that waits (43_registerspace.md R312): CORE after each of the three cycles. -/
theorem Strobed.run (h : Strobed k w i₀ i₁ i₂) :
    k.tick cfg i₀ = { ctl := k.ctl, xb := { regSelect := false }, rs := k.rs.latch w } ∧
      coreRun cfg k [i₀, i₁] = { ctl := k.ctl, xb := { regSelect := false }, rs := (requested k w).rs } ∧
      coreRun cfg k [i₀, i₁, i₂] = requested k w := by
  obtain ⟨hs, hd, -⟩ := (busy_eq_false_iff k.rs).1 h.notBusy
  have hp : (k.rs.latch w).strobePending = true := by simp [h.strobe]
  have hlatch := h.started.tick_latch (cfg := cfg) h.calm₀ h.notBusy h.write
  have hcommand := (h.started.of_rs (r := k.rs.latch w) (x := { regSelect := false }) hd).tick_strobe (cfg := cfg) h.calm₁ hs hp
  have hconnect := (h.started.of_rs (r := (requested k w).rs) (x := { regSelect := false }) hd).tick_connect (cfg := cfg) h.calm₂ rfl rfl
  have htwo : coreRun cfg k [i₀, i₁] = { ctl := k.ctl, xb := { regSelect := false }, rs := (requested k w).rs } := by
    simp only [coreRun, hlatch, hcommand]
    rfl
  refine ⟨hlatch, htwo, ?_⟩
  rw [show [i₀, i₁, i₂] = [i₀, i₁] ++ [i₂] from rfl, coreRun_append, htwo]
  exact hconnect

/-- What holds of CORE after the write and after the strobe. -/
theorem Strobed.throughout {P : CoreState → Prop} (h : Strobed k w i₀ i₁ i₂)
    (h₁ : P { ctl := k.ctl, xb := { regSelect := false }, rs := k.rs.latch w })
    (h₂ : P { ctl := k.ctl, xb := { regSelect := false }, rs := (requested k w).rs }) :
    Throughout cfg P (k.tick cfg i₀) [i₁, i₂] := by
  obtain ⟨hlatch, htwo, -⟩ := h.run (cfg := cfg)
  rw [← hlatch] at h₁
  rw [← htwo] at h₂
  exact ⟨h₁, h₂, trivial⟩

end Request

/-! ## What the records show -/

section Records

variable {cfg : Cfg} {k : CoreState} {i : Inputs} {is : List Inputs}

/-- While the Controller is idle the bus is. -/
theorem busOf_of_idle (h : Throughout cfg (fun k => k.ctl.state = .idle) k is) :
    busOf (coreObs cfg k is) = List.replicate is.length BusOut.idle :=
  List.eq_replicate_iff.2 ⟨(List.length_map _).trans (coreObs_length cfg k is),
    List.forall_mem_map.2 (throughout_coreObs (fun _ _ hs => bus_of_resting (.inl hs)) h)⟩

/-- The CSR shows that RegisterSpace is busy (43_registerspace.md R310). -/
theorem busyOf_of_busy (h : Throughout cfg (fun k => k.rs.busy = true) k is) :
    busyOf (coreObs cfg k is) = List.replicate is.length true :=
  List.eq_replicate_iff.2 ⟨(List.length_map _).trans (coreObs_length cfg k is),
    List.forall_mem_map.2 (throughout_coreObs (Q := fun o => o.out.csrRdata.getLsbD 31 = true)
      (fun _ _ hb => (csrWord_busy ..).trans hb) h)⟩

theorem busyOf_cons : busyOf (coreObs cfg k (i :: is)) = k.rs.busy :: busyOf (coreObs cfg (k.tick cfg i) is) :=
  congrArg (fun b => b :: busyOf (coreObs cfg (k.tick cfg i) is)) (csrWord_busy ..)

end Records

/-- An access the CSR asked for is not over. -/
def Pursued (k : CoreState) : Prop := k.rs.busy = true ∧ k.rs.setupDone = true

/-- A CSR write with strobe is the three cycles to its command and the access (43_registerspace.md R317, R318). -/
theorem coreRun_go {cfg : Cfg} {k k' : CoreState} {i₀ i₁ i₂ : Inputs} {as : List Inputs} {w : CsrWord} {bs : List BusOut}
    (h : Strobed k w i₀ i₁ i₂) (haccess : Access cfg true (requested k w) as k' bs) :
    coreRun cfg k ([i₀, i₁, i₂] ++ as) = k' ∧
      busOf (coreObs cfg k ([i₀, i₁, i₂] ++ as)) = List.replicate 3 BusOut.idle ++ bs ∧
      busyOf (coreObs cfg k ([i₀, i₁, i₂] ++ as)) = false :: List.replicate (as.length + 2) true ∧
      handedByData (coreObs cfg k ([i₀, i₁, i₂] ++ as)) = [] ∧ takenByData (coreObs cfg k ([i₀, i₁, i₂] ++ as)) = [] ∧
      Throughout cfg Pursued (k.tick cfg i₀) ([i₁, i₂] ++ as) := by
  obtain ⟨-, -, hthree⟩ := h.run (cfg := cfg)
  have hidle : Throughout cfg (fun k => k.ctl.state = .idle) k [i₀, i₁, i₂] :=
    ⟨h.started.idle, h.throughout h.started.idle h.started.idle⟩
  have hpursued : Throughout cfg Pursued (k.tick cfg i₀) ([i₁, i₂] ++ as) := by
    refine throughout_append.2 ⟨h.throughout ⟨busy_of_strobe (by simp [h.strobe]), h.started.setup⟩
      ⟨busy_of_ne_start nofun, h.started.setup⟩, ?_⟩
    rw [show coreRun cfg (k.tick cfg i₀) [i₁, i₂] = requested k w from hthree]
    exact haccess.atWork.mono fun _ hk => ⟨hk.busy, hk.setup⟩
  obtain ⟨hhand, htake⟩ := noWord_passes (throughout_coreObs (fun _ _ hs => noWord_of_idle hs) hidle)
  obtain ⟨hhand', htake'⟩ := haccess.noData
  have hobs : coreObs cfg k ([i₀, i₁, i₂] ++ as) = coreObs cfg k [i₀, i₁, i₂] ++ coreObs cfg (requested k w) as := by
    rw [coreObs_append, hthree]
  refine ⟨by rw [coreRun_append, hthree, haccess.run], ?_, ?_, ?_, ?_, hpursued⟩
  · rw [hobs, busOf_append, busOf_of_idle hidle, haccess.bus]
    rfl
  · rw [List.cons_append, busyOf_cons, h.notBusy, busyOf_of_busy (hpursued.mono fun _ hk => hk.1)]
    simp
  · rw [hobs, handedByData_append, hhand, hhand', List.append_nil]
  · rw [hobs, takenByData_append, htake, htake', List.append_nil]

/-! ## The machine -/

theorem started_of_accessReady {s : State} (h : accessReady s = true) : Started s.core ∧ s.core.rs.busy = false := by
  obtain ⟨hidle, hd, hp, hb⟩ := (accessReady_iff s).1 h
  exact ⟨⟨hidle, hd, hp, ((busy_eq_false_iff _).1 hb).2.1⟩, hb⟩

/-- A CSR write with strobe runs while the access is not over. -/
theorem csrGo_eq_cycles_of_pursued {s : State} {w : CsrWord} {m : Nat} (hb : s.core.rs.busy = false)
    (hpursued : Throughout s.cfg Pursued (presentCsr s w).clock.core (applied m (presentCsr s w).clock))
    (hdone : (cycles (m + 1) (presentCsr s w)).core.rs.busy = false) (hm : m + 1 ≤ s.horizon) :
    s.csrGo w = cycles (m + 1) (presentCsr s w) := by
  rw [State.csrGo, hb, if_neg Bool.false_ne_true]
  refine runWhile_eq_cycles (s := (presentCsr s w).clock) (fun j hj => ?_) ?_ (by omega)
  · obtain ⟨hbusy, hsetup⟩ := throughout_applied (s := (presentCsr s w).clock) hpursued hj
    rw [State.accessing, hbusy, hsetup]
    rfl
  · rw [← cycles_succ, State.accessing, hdone]
    rfl

/-- The machine after a CSR write with strobe, from the access that its command starts. -/
theorem csrGo_of_access {s : State} {w : CsrWord} {n : Nat} {k' : CoreState} {bs : List BusOut} (hready : accessReady s = true)
    (hstrobe : w.getLsbD 30 = true) (hcalm : ∀ a ∈ applied 3 (presentCsr s w), CalmCycle a)
    (haccess : Access s.cfg true (requested s.core w) (applied n (cycles 3 (presentCsr s w))) k' bs) (hdone : k'.rs.busy = false)
    (hn : n + 3 ≤ s.horizon) :
    ∃ obs,
      s.csrGo w =
        { s with
          core := k', device := s.device.map fun d => deviceAfter s.cfg s.cycle d (busOf obs)
          sched := s.sched.drop (n + 3), req := none, cycle := s.cycle + (n + 3), trace := s.trace ++ obs } ∧
      busOf obs = List.replicate 3 BusOut.idle ++ bs ∧ busyOf obs = false :: List.replicate (n + 2) true ∧
      handedByData obs = [] ∧ takenByData obs = [] := by
  obtain ⟨hstarted, hb⟩ := started_of_accessReady hready
  obtain ⟨hc₀, hrest⟩ := List.forall_mem_cons.1 hcalm
  obtain ⟨hc₁, hrest⟩ := List.forall_mem_cons.1 hrest
  obtain ⟨hc₂, -⟩ := List.forall_mem_cons.1 hrest
  obtain ⟨hrun, hbus, hbusy, hhand, htake, hpursued⟩ := coreRun_go ⟨hstarted, hb, hstrobe, rfl, hc₀, hc₁, hc₂⟩ haccess
  have hcore : (cycles (n + 3) (presentCsr s w)).core = k' := (cycles_core (n + 3) (presentCsr s w)).trans hrun
  rw [applied_length] at hbusy
  refine ⟨coreObs s.cfg s.core (applied (n + 3) (presentCsr s w)), ?_, hbus, hbusy, hhand, htake⟩
  rw [csrGo_eq_cycles_of_pursued (w := w) (m := n + 2) hb hpursued (by rw [hcore, hdone]) hn, cycles_eq_of_core hcore, cycles_succ,
    cycles_req_none _ rfl]
  rfl

section Applied

variable {s : State} {is rest : List Inputs}

/-- Where no data command is scheduled or presented, none is applied. -/
theorem applied_noCommand (hs : s.sched = is ++ rest) (hreq : ∀ c, s.req ≠ some (.cmd c)) (h : ∀ i ∈ is, i.dp.cmdValid = false) :
    ∀ a ∈ applied is.length s, a.dp.cmdValid = false := by
  induction is generalizing s with
  | nil => exact List.forall_mem_nil _
  | cons i is ih =>
    obtain ⟨hi, his⟩ := List.forall_mem_cons.1 h
    have hreq' : s.reqAfter = none := by
      unfold State.reqAfter
      split
      next c hc => exact absurd hc (hreq c)
      all_goals rfl
    refine List.forall_mem_cons.2 ⟨?_, ih (by simp [hs]) (by simp [hreq']) his⟩
    have hsched : s.scheduled = i := by rw [State.scheduled, hs]; rfl
    rw [State.inputs, hsched]
    unfold Inputs.present
    split
    next c hc => exact absurd hc (hreq c)
    all_goals exact hi

theorem calm_iff {i : Inputs} : calm i = true ↔ quiet i = true ∧ i.dp.cmdValid = false := by simp [calm]

theorem noReset_of_calm {i : Inputs} (h : calm i = true) : i.reset = false := ((quiet_iff i).1 (calm_iff.1 h).1).1

theorem lockedFor_of_none (hd : s.device = none) (h : ∀ i ∈ is, i.phy.pllLocked = true) : lockedFor s is = true := by
  rw [lockedFor, hd]
  exact List.all_eq_true.2 h

/-- Over calm scheduled cycles with the PHY locked the applied ones are calm. -/
theorem applied_calm (hs : s.sched = is ++ rest) (hreq : ∀ c, s.req ≠ some (.cmd c)) (h : ∀ i ∈ is, calm i = true)
    (hl : lockedFor s is = true) : ∀ a ∈ applied is.length s, CalmCycle a := by
  intro a ha
  exact ⟨applied_noReset hs (fun i hi => noReset_of_calm (h i hi)) a ha, applied_locked hs hl a ha,
    applied_noCommand hs hreq (fun i hi => (calm_iff.1 (h i hi)).2) a ha⟩

end Applied

/-- RegisterSpace with the command of a CSR instruction waiting. -/
theorem requested_rs {k : CoreState} (hb : k.rs.busy = false) (we : Bool) (die : BitVec 2) (type : BitVec 8) (nr : BitVec 3)
    (value : HalfWord) :
    (requested k (csrWordOf false true we die type nr value)).rs =
      { state := .waitCmd, setupDone := true, strobePending := false, regValue := value, regNr := nr, regType := type, dieNr := die
        we := we } := by
  obtain ⟨-, hd, -⟩ := (busy_eq_false_iff k.rs).1 hb
  rw [requested, latch_csrWordOf, hd]

theorem requesting_requested {k : CoreState} (h : Started k) (w : CsrWord) : Requesting (requested k w) :=
  ⟨h.idle, h.dlycnt, h.configured, rfl, rfl⟩

/-- Settles O41: the access is a register write of one word. -/
theorem csrGoWrCompletes : Obligations.CsrGoWrCompletes := by
  intro s die type nr value h rest hready hs hlen hcalm hl
  obtain ⟨hstarted, hb⟩ := started_of_accessReady hready
  have hrs := requested_rs hb true die type nr value
  have hstrobe := csrWord_strobe false true true die type nr value
  have hexec : exec (.csrGoWr die type nr value) s = .next (s.csrGo (csrWordOf false true true die type nr value)) := rfl
  generalize csrWordOf false true true die type nr value = w at hrs hstrobe hexec
  have hcalm' := applied_calm (s := presentCsr s w) hs nofun hcalm hl
  rw [hlen, show 8 = 3 + 5 from rfl, applied_add] at hcalm'
  obtain ⟨hfirst, hcalm'⟩ := List.forall_mem_append.1 hcalm'
  obtain ⟨i, pk, word, post, happ, hpk, hpost⟩ :=
    exists_wordCycles (is := applied 5 (cycles 3 (presentCsr s w))) (n := 0) (applied_length _ _)
  obtain rfl := List.length_eq_zero_iff.1 hpost
  rw [List.append_nil] at happ
  have haccess := access_wordWrite (cfg := s.cfg) (done := true) (requesting_requested hstarted w) (by rw [hrs]) (by rw [hrs]) hpk
    (fun a ha => (hcalm' a (happ ▸ ha)).noReset) (hcalm' i (happ ▸ List.mem_cons_self)).locked (w := word)
  rw [← happ, wordTaken_of_setupDone (by rw [hrs])] at haccess
  obtain ⟨obs, hgo, hbus, hbusy, -, -⟩ :=
    csrGo_of_access hready hstrobe hfirst haccess (by simp [hrs, Rs.busy]) (by simp [State.horizon, hs]; omega)
  refine ⟨obs, ?_, ?_, hbusy⟩
  · rw [hexec, hgo, hs, hrs]
    rw [List.drop_left' hlen]
    rfl
  · rw [hbus, hrs]
    rfl

/-- Settles O42: the access is a register read up to its first strobed word, the applied inputs being the scheduled ones. -/
theorem csrGoRdCompletes : Obligations.CsrGoRdCompletes := by
  intro s die type nr value m w h pre ws rest long hwf hready hdev hs hcalm hq hlen hm hlong hpre hws hstrobed
  subst hlong
  obtain ⟨i₀, i₁, i₂, i₃, rfl⟩ : ∃ i₀ i₁ i₂ i₃, h = [i₀, i₁, i₂, i₃] := List.length_eq_four.1 hlen
  obtain ⟨hstarted, hb⟩ := started_of_accessReady hready
  have hrs := requested_rs hb false die type nr value
  have hstrobe := csrWord_strobe false true false die type nr value
  have hexec : exec (.csrGoRd die type nr value) s = .next (s.csrGo (csrWordOf false true false die type nr value)) := rfl
  generalize csrWordOf false true false die type nr value = v at hrs hstrobe hexec
  have hfirst := applied_calm (s := presentCsr s v) (is := [i₀, i₁, i₂]) (rest := i₃ :: (pre ++ ws ++ w :: rest)) hs nofun
    (fun i hi => (hcalm i (List.mem_append_left [i₃] hi)).1)
    (lockedFor_of_none hdev fun i hi => (hcalm i (List.mem_append_left [i₃] hi)).2)
  have happ : applied (i₃ :: (pre ++ ws ++ [w])).length (cycles 3 (presentCsr s v)) = i₃ :: (pre ++ ws ++ [w]) :=
    applied_of_none (rest := rest) _ (by simp [presentCsr, hs]) rfl (cycles_device_none 3 (s := presentCsr s v) hdev)
  have hreset : ∀ j ∈ i₃ :: (pre ++ ws ++ [w]), j.reset = false :=
    List.forall_mem_cons.2 ⟨noReset_of_calm (hcalm i₃ (by simp)).1, fun j hj => ((quiet_iff j).1 (hq j hj)).1⟩
  have haccess := access_wordRead (cfg := s.cfg) (done := true) (i := i₃) hwf (requesting_requested hstarted v) (by rw [hrs])
    (by rw [hrs]) hreset (hcalm i₃ (by simp)).2 hm hpre hws hstrobed
  rw [← happ] at haccess
  obtain ⟨obs, hgo, hbus, hbusy, hhand, htake⟩ :=
    csrGo_of_access hready hstrobe hfirst haccess (by simp [hrs, Rs.busy]) (by simp [State.horizon, hs])
  have hcount : (i₃ :: (pre ++ ws ++ [w])).length + 3
      = s.cfg.lat (longLatency s.cfg m.phy) + s.cfg.txLatency + s.cfg.rxLatency + ws.length + 7 := by simp; omega
  rw [hcount, hrs] at hgo
  refine ⟨obs, ?_, ?_, ?_, htake, hhand⟩
  · have hsched : s.sched = ([i₀, i₁, i₂] ++ i₃ :: (pre ++ ws ++ [w])) ++ rest := by simp [hs]
    rw [hexec, hgo, hsched, List.drop_left' (by rw [← hcount]; simp), hdev, Option.map_none, ← hdev]
    rfl
  · rw [hbus, hrs]
    rfl
  · rw [hbusy]
    congr 2
    omega

end Sys2Proof.Proofs
end

section
/-! Proofs about CORE's tick and the machine's step (45_core.md R353, R354): what the cycle after a reset shows, which instruction a
step runs, and how many cycles an instruction takes. -/

namespace Sys2Proof.Proofs

open Sys2Proof Sys2Proof.Machine Sys2Proof.Safety Sys2Proof.Laws

/-! ## The cycle after a reset -/

theorem reset_resting (cfg : Cfg) : Resting (CoreState.reset cfg).ctl := .inl rfl

theorem reset_sel (cfg : Cfg) : (CoreState.reset cfg).sel = true := sel_of_lockout rfl

/-- Settles O13: after a reset the Controller rests in `IDLE`, so it drives nothing, and lockout disconnects the data port. -/
theorem resetWins : Obligations.ResetWins := by
  intro cfg s i j hreset
  rw [tick_of_reset cfg s i hreset]
  obtain ⟨hcmd, hwdata, hrdata⟩ := dpOut_of_sel (cfg := cfg) (i := j) (reset_sel cfg)
  have hbus : (CoreState.reset cfg).ctl.bus cfg ((CoreState.reset cfg).mpIn cfg j) = BusOut.idle :=
    bus_of_resting (reset_resting cfg)
  exact ⟨rfl, hbus, hcmd, hwdata, hrdata, rfl⟩

/-! ## What a step runs -/

section Fetch

variable {s : State}

theorem fetch_of_cfgPending (h : s.core.ctl.cfgPending = true) : s.fetch = some .ctlAutocfg := by simp [State.fetch, h]

theorem fetch_of_setup (hp : s.core.ctl.cfgPending = false) (hd : s.core.rs.setupDone = false) : s.fetch = some .rsSetup := by
  simp [State.fetch, hp, hd]

theorem fetch_of_started (hp : s.core.ctl.cfgPending = false) (hd : s.core.rs.setupDone = true) :
    s.fetch = s.req.map Request.decode := by
  simp [State.fetch, hp, hd]

theorem step_of_fetch {i : Instr} (h : s.fetch = some i) : Machine.step s = exec i s := by simp [Machine.step, State.stepOf, h]

theorem step_of_fetch_none (h : s.fetch = none) : Machine.step s = .next s.clock := by simp [Machine.step, State.stepOf, h]

end Fetch

/-- Settles O17: a step runs what `fetch` answers, and the bytes of the presented request decode to just that. -/
theorem stepRunsDecodedInstruction : Obligations.StepRunsDecodedInstruction := by
  intro s
  refine ⟨fun hp => step_of_fetch (fetch_of_cfgPending hp), fun hp hd => step_of_fetch (fetch_of_setup hp hd),
    fun hp hd => ⟨fun r i hr hi => ?_, fun hr => ?_⟩⟩
  · have hdecode : r.decode = i := Except.ok.inj ((decode_toBytes r).symm.trans hi)
    exact step_of_fetch (by rw [fetch_of_started hp hd, hr, Option.map_some, hdecode])
  · exact step_of_fetch_none (by rw [fetch_of_started hp hd, hr, Option.map_none])

/-! ## How many cycles an instruction takes -/

/-- A run that starts busy and may take a cycle takes at least one. -/
theorem runWhile_is_cycles_of_busy {busy : State → Bool} {s : State} (h : busy s = true) {n : Nat} (hn : 1 ≤ n) :
    ∃ m, 1 ≤ m ∧ m ≤ n ∧ runWhile busy n s = cycles m s := by
  obtain ⟨n, rfl⟩ := Nat.exists_eq_add_of_le' hn
  obtain ⟨m, hm, hrun⟩ := runWhile_is_cycles busy n s.clock
  exact ⟨m + 1, by omega, by omega, by rw [runWhile_step h, hrun, cycles_succ]⟩

theorem horizon_pos (s : State) : 1 ≤ s.horizon := Nat.le_max_left _ _

/-- A transaction takes a cycle because its own command is waiting. -/
theorem transact_is_cycles (s : State) (c : Cmd) :
    ∃ n, 1 ≤ n ∧ n ≤ s.horizon ∧ s.transact c = cycles n { s with req := some (.cmd c.toWord) } :=
  runWhile_is_cycles_of_busy rfl (horizon_pos s)

/-- A strobed CSR write takes the cycle of the write, and within the horizon the access it starts. -/
theorem csrGo_is_cycles (s : State) (w : CsrWord) :
    ∃ n, 1 ≤ n ∧ n ≤ s.horizon ∧ s.csrGo w = cycles n { s with req := some (.csrWrite w) } := by
  have hpos := horizon_pos s
  cases hb : s.core.rs.busy with
  | true => exact ⟨1, Nat.le_refl 1, hpos, csrGo_of_busy hb⟩
  | false =>
    obtain ⟨m, hm, hrun⟩ := runWhile_is_cycles State.accessing (s.horizon - 1) (s.csrWrite w)
    refine ⟨1 + m, by omega, by omega, ?_⟩
    rw [cycles_add, ← csrWrite_eq_cycles, ← hrun]
    simp [State.csrGo, hb]

/-- Every instruction is a number of cycles within the horizon, at least one for a client's. -/
theorem exec_is_cycles (i : Instr) (s : State) :
    ∃ n, exec i s = .next (cycles n (presenting i s)) ∧ n ≤ s.horizon ∧ (i.wellFormed = true → 1 ≤ n) := by
  cases i with
  | memRd burst addr | memWr burst addr | regRd burst addr | regWr burst addr =>
    obtain ⟨n, hpos, hle, hrun⟩ := transact_is_cycles s _
    exact ⟨n, congrArg _ hrun, hle, fun _ => hpos⟩
  | csrGoWr die type nr value | csrGoRd die type nr value =>
    obtain ⟨n, hpos, hle, hrun⟩ := csrGo_is_cycles s _
    exact ⟨n, congrArg _ hrun, hle, fun _ => hpos⟩
  | csrLatch | csrRead => exact ⟨1, rfl, horizon_pos s, fun _ => Nat.le_refl 1⟩
  | ctlAutocfg | rsSetup =>
    obtain ⟨n, hle, hrun⟩ := runWhile_is_cycles _ s.horizon s
    exact ⟨n, congrArg _ hrun, hle, nofun⟩

theorem cycles_trace_extends (n : Nat) (s : State) : s.trace <+: (cycles n s).trace :=
  ⟨_, (cycles_trace n s).symm⟩

/-- Settles O18: a presented request touches neither the configuration nor the schedule nor the record, and cycles alone count. -/
theorem instructionsAreCycles : Obligations.InstructionsAreCycles := by
  intro i s
  obtain ⟨n, hexec, hle, hpos⟩ := exec_is_cycles i s
  obtain ⟨r, hr⟩ := presenting_eq i s
  refine ⟨n, hexec, hle, hpos, ?_⟩
  rw [hr]
  exact ⟨cycles_cfg n _, cycles_cycle n _, cycles_sched n _, cycles_trace_extends n { s with req := r }⟩

end Sys2Proof.Proofs
end

section
/-! Proofs about stalls (60_exceptions.md R374, R375): a cycle in which the word the Controller waits for does not come, and runs of
such cycles. -/

namespace Sys2Proof.Proofs

open Sys2Proof Sys2Proof.Machine Sys2Proof.Safety Sys2Proof.Laws

/-! ## One cycle of the Controller -/

section Controller

variable {cfg : Cfg} {c : Ctl} {mp : PortIn} {phy : PhyIn}

/-- Where the Controller takes a client's word (60_exceptions.md R374, the rows of `SELECT_OP`, `WRITE` and `WRITE_REG`). -/
theorem wdataReady_iff :
    (c.portOut phy).wdataReady = true ↔
      c.gate = true ∧
        (c.state = .write ∨ c.state = .writeReg ∨ (c.state = .selectOp ∧ c.regWritePath = true ∧ c.autoTxn = false)) := by
  cases hs : c.state <;> simp [Ctl.portOut, hs, and_assoc]

theorem state_ne_idle_of_wdataReady (h : (c.portOut phy).wdataReady = true) : c.state ≠ .idle := by
  obtain ⟨-, hs | hs | ⟨hs, -⟩⟩ := wdataReady_iff.1 h <;> simp [hs]

/-- A word awaited and not offered leaves the Controller as it is (41_controller.md R205, R210, R212). -/
theorem tick_of_no_word (h : (c.portOut phy).wdataReady = true) (hv : mp.wdataValid = false) : c.tick cfg mp phy = c := by
  obtain ⟨hg, hs⟩ := wdataReady_iff.1 h
  have hd : c.dlycnt = 0#8 := (gate_iff c).1 hg
  have hstream : c.tickStream cfg mp = c := by simp [Ctl.tickStream, hv]
  obtain hs | hs | ⟨hs, hp, ha⟩ := hs
  · rw [tick_stream (.inl hs) hd, hstream]
  · rw [tick_stream (.inr hs) hd, hstream]
  · obtain ⟨hread, hreg⟩ : caRead c.ca = false ∧ caReg c.ca = true := by simpa [Ctl.regWritePath] using hp
    obtain ⟨-, -, hstall, -⟩ := (registerWriteStreams cfg c mp phy hd hread hreg).2 (.inl ⟨hs, ha⟩)
    exact hstall hv

/-- While an awaited word is not offered, the device stays selected and its clock stands. -/
theorem bus_of_no_word (h : (c.portOut phy).wdataReady = true) (hv : mp.wdataValid = false) :
    (c.bus cfg mp).cs = true ∧ (c.bus cfg mp).clkEn = false := by
  obtain ⟨hg, hs | hs | ⟨hs, hp, ha⟩⟩ := wdataReady_iff.1 h
  · simp [Ctl.bus, hs, hg, BusOut.memWord, hv]
  · simp [Ctl.bus, hs, BusOut.regWord, hv]
  · simp [Ctl.bus, hs, hp, ha, BusOut.regWord, hv]

theorem rdataValid_of_no_strobe (hstrobe : phy.rwdsIn.getLsbD 1 = false) : (c.portOut phy).rdataValid = false := by
  simp only [Ctl.portOut, hstrobe, Bool.and_false]

/-- Without a strobe nothing is transferred, so a read goes on (41_controller.md R218). -/
theorem tick_of_no_strobe (hs : c.state = .read) (hd : c.dlycnt = 0#8) (hstrobe : phy.rwdsIn.getLsbD 1 = false) :
    c.tick cfg mp phy = c := by
  obtain ⟨-, -, -, hopen⟩ := readOffersStrobedWords cfg c mp phy hs
  exact (hopen ((gate_iff c).2 hd)).2 fun ⟨hvalid, _⟩ => Bool.false_ne_true ((rdataValid_of_no_strobe hstrobe).symm.trans hvalid)

end Controller

/-! ## One cycle of CORE -/

section Core

variable {cfg : Cfg} {s : CoreState} {i : Inputs}

/-- No command is accepted while a transaction is in flight (60_exceptions.md R375). -/
theorem dpOut_cmdReady_of_not_idle (h : s.ctl.state ≠ .idle) : (s.dpOut cfg i).cmdReady = false := by
  simp [CoreState.dpOut, xbToData, mpOut_cmdReady_of_not_idle i h]

theorem rpOut_rdataValid_of_no_strobe (hstrobe : i.phy.rwdsIn.getLsbD 1 = false) : (s.rpOut i).rdataValid = false := by
  simp [CoreState.rpOut, xbToReg, CoreState.mpOut, rdataValid_of_no_strobe hstrobe]

/-- RegisterSpace waits for its word, busy, so that a CSR write does not reach it either (43_registerspace.md R302, R308). -/
theorem rsTick_waitRead_of_no_word {r : Rs} {rp : PortOut} (csr : CsrIn) (hs : r.state = .waitRead) (hv : rp.rdataValid = false) :
    r.tick rp csr = r := by
  rw [rsTick_of_busy (busy_of_ne_start (by simp [hs])), advance_waitRead hs, hv]
  rfl

end Core

/-! ## Runs of cycles -/

section Run

variable {cfg : Cfg} {s : CoreState} {is : List Inputs}

/-- A read without strobe stays as it is, and so does RegisterSpace when it waits for the word. -/
theorem coreRun_of_no_strobe (hs : s.ctl.state = .read) (hd : s.ctl.dlycnt = 0#8)
    (his : ∀ i ∈ is, i.reset = false ∧ i.phy.rwdsIn.getLsbD 1 = false) :
    (coreRun cfg s is).ctl = s.ctl ∧ (s.rs.state = .waitRead → (coreRun cfg s is).rs = s.rs) := by
  refine coreRun_induction (P := fun k => k.ctl = s.ctl ∧ (s.rs.state = .waitRead → k.rs = s.rs))
    (C := fun _ j => j.reset = false ∧ j.phy.rwdsIn.getLsbD 1 = false) (fun k j ⟨hr, hstrobe⟩ ⟨hctl, hrs⟩ => ?_)
    (fun n j hj => his j (List.mem_of_getElem? hj)) ⟨rfl, fun _ => rfl⟩
  rw [tick_of_not_reset _ _ _ hr, advance_ctl, advance_rs, hctl]
  refine ⟨tick_of_no_strobe hs hd hstrobe, fun hwait => ?_⟩
  rw [hrs hwait]
  exact rsTick_waitRead_of_no_word _ hwait (rpOut_rdataValid_of_no_strobe hstrobe)

/-- A write of the data port without offered words stays as it is; the connection holds because the transaction is
in flight (42_crossbar.md R276). -/
theorem coreRun_of_no_word (hw : ∀ phy, (s.ctl.portOut phy).wdataReady = true) (hsel : s.sel = false)
    (his : ∀ i ∈ is, i.reset = false ∧ i.dp.wdataValid = false) :
    (coreRun cfg s is).ctl = s.ctl ∧ (coreRun cfg s is).sel = false := by
  refine coreRun_induction (P := fun k => k.ctl = s.ctl ∧ k.sel = false)
    (C := fun _ j => j.reset = false ∧ j.dp.wdataValid = false) (fun k j ⟨hr, hv⟩ ⟨hctl, hk⟩ => ?_)
    (fun n j hj => his j (List.mem_of_getElem? hj)) ⟨rfl, hsel⟩
  have hidle : k.ctl.state ≠ .idle := by rw [hctl]; exact state_ne_idle_of_wdataReady (hw j.phy)
  refine ⟨?_, (tick_sel_of_not_idle hr hidle).trans hk⟩
  rw [tick_of_not_reset _ _ _ hr, advance_ctl, hctl, mpIn_of_not_sel hk]
  exact tick_of_no_word (hw j.phy) hv

end Run

/-- Settles O47: the Controller rests in the run, so what it drives afterwards is what its state drives. -/
theorem stallsChangeNothing : Obligations.StallsChangeNothing := by
  intro cfg s is hreset hd
  refine ⟨fun hs hstrobe => ?_, fun hsel hs hvalid => ?_⟩
  · obtain ⟨hctl, hrs⟩ := coreRun_of_no_strobe (cfg := cfg) hs hd fun i hi => ⟨hreset i hi, hstrobe i hi⟩
    refine ⟨hctl, hrs, fun i => ⟨?_, dpOut_cmdReady_of_not_idle (by simp [hctl, hs])⟩⟩
    rw [CoreState.outputs, hctl, Ctl.bus, hs]
  · have hw (phy : PhyIn) : (s.ctl.portOut phy).wdataReady = true := wdataReady_iff.2 ⟨(gate_iff _).2 hd, hs⟩
    obtain ⟨hctl, hk⟩ := coreRun_of_no_word (cfg := cfg) hw hsel fun i hi => ⟨hreset i hi, hvalid i hi⟩
    refine ⟨hctl, fun i hv => ?_⟩
    have hmp : ((coreRun cfg s is).mpIn cfg i).wdataValid = false := by rw [mpIn_of_not_sel hk]; exact hv
    have hw' : ((coreRun cfg s is).ctl.portOut i.phy).wdataReady = true := by rw [hctl]; exact hw i.phy
    obtain ⟨hcs, hclk⟩ := bus_of_no_word (cfg := cfg) hw' hmp
    exact ⟨hcs, hclk, dpOut_cmdReady_of_not_idle (state_ne_idle_of_wdataReady hw')⟩

end Sys2Proof.Proofs
end

section
/-! Proofs about CORE's start-up from reset (70_reset_and_hazards.md R400 to R404, R408): the wait for the PHY, the Controller's writes
and RegisterSpace's, and the end of the last write, during which RegisterSpace is at rest with its port still connected. -/

namespace Sys2Proof.Proofs

open Sys2Proof Sys2Proof.Machine Sys2Proof.Safety Sys2Proof.Laws

/-! ## The start-up as an access of RegisterSpace -/

section StartUp

variable {cfg : Cfg} {k k' : CoreState} {i : Inputs} {is : List Inputs} {bs : List BusOut}

theorem startingUpIn_iff_throughout : StartingUpIn cfg k is ↔ Throughout cfg StartingUp k is := by
  induction is generalizing k with
  | nil => exact Iff.rfl
  | cons i is ih => simp only [StartingUpIn, Throughout, ih]

/-- While CORE starts up RegisterSpace has the port and is busy (43_registerspace.md R296). -/
theorem StartingUp.atWork (h : StartingUp k) : AtWork false k := ⟨h.sel, busy_of_setup h.setup, h.setup⟩

theorem access_of_startingUpIn (h : StartingUpIn cfg k is) (hrun : coreRun cfg k is = k') (hbus : busOf (coreObs cfg k is) = bs) :
    Access cfg false k is k' bs :=
  ⟨hrun, hbus, (startingUpIn_iff_throughout.1 h).mono fun _ => StartingUp.atWork⟩

/-- CORE from reset up to its first launch: RegisterSpace puts up its command, and nothing else happens. -/
structure Unlaunched (cfg : Cfg) (k : CoreState) : Prop where
  ctl : k.ctl = Ctl.reset cfg
  xb : k.xb = { regSelect := true }
  rs : k.rs = Rs.reset cfg ∨ k.rs = { Rs.reset cfg with state := .waitCmd }

theorem unlaunched_reset (cfg : Cfg) : Unlaunched cfg (CoreState.reset cfg) := ⟨rfl, rfl, .inl rfl⟩

theorem Unlaunched.rs_waitCmd (h : Unlaunched cfg k) : { k.rs with state := .waitCmd } = { Rs.reset cfg with state := .waitCmd } := by
  rcases h.rs with hrs | hrs <;> rw [hrs]

theorem Unlaunched.startingUp (h : Unlaunched cfg k) : StartingUp k := by
  obtain ⟨hctl, -, hrs | hrs⟩ := h
  · exact ⟨by rw [hctl]; rfl, by rw [hrs]; rfl, .inl (by rw [hrs]; rfl), by rw [hrs]; rfl⟩
  · exact ⟨by rw [hctl]; rfl, by rw [hrs]; rfl, .inr (by rw [hrs]), by rw [hrs]; rfl⟩

/-- Without the PHY's lock nothing is launched (41_controller.md R200). -/
theorem Unlaunched.tick (h : Unlaunched cfg k) (hr : i.reset = false) (hl : i.phy.pllLocked = false) :
    Unlaunched cfg (k.tick cfg i) := by
  have hctl : (Ctl.reset cfg).tick cfg (k.rs.port cfg) i.phy = Ctl.reset cfg := by
    simp [tick_idle (c := Ctl.reset cfg) rfl rfl, Ctl.tickIdle, hl]
  rw [h.startingUp.tick hr, h.ctl, hctl]
  exact ⟨rfl, rfl, .inr h.rs_waitCmd⟩

/-- The wait for the PHY's lock (70_reset_and_hazards.md R401). -/
theorem access_unlocked (h : Unlaunched cfg k) (hr : ∀ j ∈ is, j.reset = false) (hl : ∀ j ∈ is, j.phy.pllLocked = false) :
    ∃ k', Unlaunched cfg k' ∧ Access cfg false k is k' (List.replicate is.length BusOut.idle) := by
  induction is generalizing k with
  | nil => exact ⟨k, h, access_nil cfg false k⟩
  | cons i is ih =>
    obtain ⟨hri, hr⟩ := List.forall_mem_cons.1 hr
    obtain ⟨hli, hl⟩ := List.forall_mem_cons.1 hl
    obtain ⟨k', hk', haccess⟩ := ih (h.tick hri hli) hr hl
    have hidle : (k.outputs cfg i).bus = BusOut.idle := bus_of_resting (.inl (by rw [h.ctl]; rfl))
    have hcycle : Access cfg false k [i] (k.tick cfg i) [BusOut.idle] :=
      access_of_startingUpIn ⟨h.startingUp, trivial⟩ rfl (congrArg (fun b => [b]) hidle)
    exact ⟨k', hk', hcycle.append haccess⟩

end StartUp

/-! ## The writes to the dies -/

section Writes

variable {cfg : Cfg} {k : CoreState} {is : List Inputs}

/-- One write of `CFG.CR0` to each of the dies. -/
def diesBus (cfg : Cfg) (dies : List Nat) : List BusOut :=
  dies.flatMap fun die => fullWriteBus cfg (caAutocfg cfg (BitVec.ofNat 1 die)) cfg.cr0

/-- CORE after the Controller's writes: RegisterSpace's command waits. -/
def coreConfigured (cfg : Cfg) : CoreState :=
  { ctl := ctlConfigured cfg, xb := { regSelect := true }, rs := { Rs.reset cfg with state := .waitCmd } }

/-- The Controller's writes (70_reset_and_hazards.md R402). -/
theorem access_configure (hwf : cfg.wf = true) (h : Unlaunched cfg k) (hlen : is.length = cfg.nbanks * (7 + cfg.txLatency))
    (hr : ∀ j ∈ is, j.reset = false) (hl : ∀ j ∈ is, j.phy.pllLocked = true) :
    Access cfg false k is (coreConfigured cfg) (diesBus cfg (diesDown (cfg.nbanks - 1))) := by
  obtain ⟨-, hbanks, -⟩ := (wf_iff cfg).1 hwf
  have hdie : k.ctl.cfgDie.toNat = cfg.nbanks - 1 := by
    rw [h.ctl]
    rcases hbanks with hb | hb <;> simp [Ctl.reset, hb]
  obtain ⟨hrun, hbus, hstart⟩ := coreRun_autocfg hwf h.startingUp (by rw [h.ctl]; rfl) (by rw [h.ctl]; rfl)
    (by rw [hlen, hdie]; congr 1; omega) hr hl
  rw [h.rs_waitCmd] at hrun
  rw [hdie] at hbus
  exact access_of_startingUpIn hstart hrun hbus

/-- RegisterSpace's command for a die makes the Controller's own packet. -/
theorem caOf_dieCmd (cfg : Cfg) (n : Nat) :
    caOf (dieCmd cfg (coreConfigured cfg).rs (BitVec.ofNat 2 n)) = caAutocfg cfg (BitVec.ofNat 1 n) := by
  have hbit : (BitVec.ofNat 2 n).getLsbD 0 = ((BitVec.ofNat 1 n).zeroExtend 2).getLsbD 0 := by
    rw [BitVec.zeroExtend, BitVec.getLsbD_setWidth, BitVec.getLsbD_ofNat, BitVec.getLsbD_ofNat]
    rfl
  have haddr : regAddr cfg (BitVec.ofNat 2 n) 1#8 0#3 = regAddr cfg ((BitVec.ofNat 1 n).zeroExtend 2) 1#8 0#3 := by
    rw [regAddr, hbit, ← regAddr]
  rw [caAutocfg_eq, ← haddr]
  rfl

/-- The writes of set-up, with the end of the last one, repeat the Controller's. -/
theorem setupBus_writeEnd (cfg : Cfg) (n : Nat) :
    setupBus cfg (coreConfigured cfg).rs n ++ writeEnd cfg = diesBus cfg (diesDown n) := by
  induction n with
  | zero =>
    rw [diesDown, diesBus, List.flatMap_singleton, ← caOf_dieCmd]
    rfl
  | succ n ih =>
    rw [setupBus_succ, List.append_assoc, ih, caOf_dieCmd]
    rfl

/-- RegisterSpace's writes up to the last word (70_reset_and_hazards.md R403). -/
theorem access_setup_reset (hwf : cfg.wf = true) (hlen : is.length = (cfg.nbanks - 1) * (7 + cfg.txLatency) + 5)
    (hr : ∀ j ∈ is, j.reset = false) (hl : ∀ j ∈ is, j.phy.pllLocked = true) :
    Access cfg false (coreConfigured cfg) is (afterSetup cfg (coreConfigured cfg))
      (setupBus cfg (coreConfigured cfg).rs (cfg.nbanks - 1)) := by
  obtain ⟨-, hbanks, -⟩ := (wf_iff cfg).1 hwf
  refine access_setup hwf ⟨⟨rfl, rfl, rfl, rfl, rfl⟩, rfl, rfl, rfl⟩ ?_ hlen hr hl
  rcases hbanks with hb | hb <;> simp [coreConfigured, Rs.reset, hb]

end Writes

/-! ## The end of the last write -/

section End

variable {cfg : Cfg} {k : CoreState} {c' : Ctl} {i : Inputs} {is : List Inputs} {bs : List BusOut}

/-- RegisterSpace has the Controller's port and has nothing to do. -/
structure AtRest (k : CoreState) : Prop where
  regSelect : k.xb.regSelect = true
  notBusy : k.rs.busy = false

/-- With a transaction in flight and RegisterSpace at rest, the Controller alone moves. -/
theorem AtRest.tick (h : AtRest k) (hi : k.ctl.state ≠ .idle) (hq : quiet i = true) :
    k.tick cfg i = { k with ctl := k.ctl.tick cfg (k.rs.port cfg) i.phy } := by
  obtain ⟨hreset, hcsr⟩ := (quiet_iff i).1 hq
  obtain ⟨-, hdone, -⟩ := (busy_eq_false_iff k.rs).1 h.notBusy
  rw [tick_of_not_reset _ _ _ hreset, CoreState.advance, mpIn_of_sel (sel_of_regSelect h.regSelect), mpOut_cmdReady_of_not_idle i hi,
    rsTick_idle h.notBusy _ hcsr, CoreState.lockout, hdone, Bool.not_true, xbTick_of_not_ready]

/-- A leg of the Controller with RegisterSpace at rest is a run of CORE. -/
theorem coreRun_leg_atRest {handed : List WItem} {taken : List HalfWord} (h : AtRest k) (hq : ∀ j ∈ is, quiet j = true)
    (hl : Leg cfg k.ctl (waitingInputs cfg k.rs is) c' bs handed taken) :
    coreRun cfg k is = { k with ctl := c' } ∧ busOf (coreObs cfg k is) = bs ∧ Throughout cfg AtRest k is := by
  obtain ⟨rfl, rfl, hfly, -, -⟩ := hl
  induction is generalizing k with
  | nil => exact ⟨rfl, rfl, trivial⟩
  | cons i is ih =>
    obtain ⟨hqi, hq⟩ := List.forall_mem_cons.1 hq
    obtain ⟨hi, hfly⟩ := hfly
    obtain ⟨hrun, hbus, hrest⟩ := ih (k := { k with ctl := k.ctl.tick cfg (k.rs.port cfg) i.phy }) ⟨h.regSelect, h.notBusy⟩ hq
      hfly
    rw [coreRun, coreObs, Throughout, h.tick hi hqi]
    refine ⟨hrun, ?_, h, hrest⟩
    rw [busOf, List.map_cons, ← busOf, hbus, CoreState.outputs, mpIn_of_sel (sel_of_regSelect h.regSelect)]
    rfl

/-- CORE at the end of its start-up (70_reset_and_hazards.md R404). -/
def coreBooted (cfg : Cfg) : CoreState :=
  { ctl := { state := .idle, dlycnt := 0#8, ca := caAutocfg cfg 0#1, autoTxn := false, cfgPending := false, cfgDie := 0#1 }
    xb := { regSelect := true }
    rs := { state := .start, setupDone := true, strobePending := false, regValue := cfg.cr0, regNr := 0#3, regType := 1#8,
            dieNr := 0#2, we := true } }

/-- The end of set-up's last write, with `rs.busy` down. -/
theorem coreRun_lastWriteEnd (hwf : cfg.wf = true) (hlen : is.length = cfg.txLatency + 2) (hq : ∀ j ∈ is, quiet j = true) :
    coreRun cfg (afterSetup cfg (coreConfigured cfg)) is = coreBooted cfg ∧
      busOf (coreObs cfg (afterSetup cfg (coreConfigured cfg)) is) = writeEnd cfg ∧
      Throughout cfg AtRest (afterSetup cfg (coreConfigured cfg)) is := by
  have hleg := leg_writeEnd (cfg := cfg) (c := (afterSetup cfg (coreConfigured cfg)).ctl)
    (post := waitingInputs cfg (afterSetup cfg (coreConfigured cfg)).rs is) (loadsFit_of_wf hwf) rfl rfl
    (by rw [waitingInputs, List.length_map, hlen])
  rw [tickEndRead_of_client rfl] at hleg
  obtain ⟨hrun, hbus, hrest⟩ := coreRun_leg_atRest ⟨rfl, rfl⟩ hq hleg
  refine ⟨hrun.trans ?_, hbus, hrest⟩
  rw [coreBooted, show caAutocfg cfg 0#1 = _ from (caOf_dieCmd cfg 0).symm]
  rfl

end End

/-! ## From reset to the end of the last write -/

section Boot

variable {cfg : Cfg} {k : CoreState} {w h e : List Inputs}

theorem diesBus_append (cfg : Cfg) (xs ys : List Nat) : diesBus cfg (xs ++ ys) = diesBus cfg xs ++ diesBus cfg ys :=
  List.flatMap_append

/-- From reset to the last word of set-up. -/
theorem access_startUp (hwf : cfg.wf = true) (hr : ∀ i ∈ w ++ h, i.reset = false) (hw : ∀ i ∈ w, i.phy.pllLocked = false)
    (hh : ∀ i ∈ h, i.phy.pllLocked = true)
    (hlen : h.length = cfg.nbanks * (7 + cfg.txLatency) + ((cfg.nbanks - 1) * (7 + cfg.txLatency) + 5)) :
    Access cfg false (CoreState.reset cfg) (w ++ h) (afterSetup cfg (coreConfigured cfg))
      (List.replicate w.length BusOut.idle ++
        (diesBus cfg (diesDown (cfg.nbanks - 1)) ++ setupBus cfg (coreConfigured cfg).rs (cfg.nbanks - 1))) := by
  obtain ⟨as, bs, rfl, has, hbs⟩ : ∃ as bs, h = as ++ bs ∧ as.length = cfg.nbanks * (7 + cfg.txLatency) ∧
      bs.length = (cfg.nbanks - 1) * (7 + cfg.txLatency) + 5 :=
    ⟨h.take (cfg.nbanks * (7 + cfg.txLatency)), h.drop (cfg.nbanks * (7 + cfg.txLatency)), (List.take_append_drop _ _).symm,
      by rw [List.length_take]; omega, by rw [List.length_drop]; omega⟩
  obtain ⟨hrw, hrh⟩ := List.forall_mem_append.1 hr
  obtain ⟨hras, hrbs⟩ := List.forall_mem_append.1 hrh
  obtain ⟨hlas, hlbs⟩ := List.forall_mem_append.1 hh
  obtain ⟨k, hk, hwait⟩ := access_unlocked (unlaunched_reset cfg) hrw hw
  exact hwait.append ((access_configure hwf hk has hras hlas).append (access_setup_reset hwf hbs hrbs hlbs))

/-- What the CSR shows of `rs.busy` (43_registerspace.md R310). -/
theorem busyOf_eq_replicate {b : Bool} (h : Throughout cfg (fun k => k.rs.busy = b) k w) :
    busyOf (coreObs cfg k w) = List.replicate w.length b :=
  List.eq_replicate_iff.2 ⟨(List.length_map _).trans (coreObs_length cfg k w),
    List.forall_mem_map.2 (throughout_coreObs (Q := fun o => o.out.csrRdata.getLsbD 31 = b)
      (fun _ _ hb => (csrWord_busy ..).trans hb) h)⟩

/-- From reset to the end of the last write: `w` is the wait for the PHY's lock, `e` the end of the last write. -/
theorem coreRun_boot (hwf : cfg.wf = true) (hr : ∀ i ∈ w ++ h, i.reset = false) (hw : ∀ i ∈ w, i.phy.pllLocked = false)
    (hh : ∀ i ∈ h, i.phy.pllLocked = true)
    (hlen : h.length = cfg.nbanks * (7 + cfg.txLatency) + ((cfg.nbanks - 1) * (7 + cfg.txLatency) + 5))
    (he : ∀ i ∈ e, quiet i = true) (helen : e.length = cfg.txLatency + 2) :
    coreRun cfg (CoreState.reset cfg) (w ++ h ++ e) = coreBooted cfg ∧
      busOf (coreObs cfg (CoreState.reset cfg) (w ++ h ++ e)) = List.replicate w.length BusOut.idle ++
        diesBus cfg (diesDown (cfg.nbanks - 1) ++ diesDown (cfg.nbanks - 1)) ∧
      busyOf (coreObs cfg (CoreState.reset cfg) (w ++ h ++ e)) =
        List.replicate (w.length + h.length) true ++ List.replicate (cfg.txLatency + 2) false ∧
      Throughout cfg (fun k => k.sel = true) (CoreState.reset cfg) (w ++ h ++ e) := by
  have hstart := access_startUp hwf hr hw hh hlen
  obtain ⟨hrun, hbus, hrest⟩ := coreRun_lastWriteEnd hwf helen he
  have hobs : coreObs cfg (CoreState.reset cfg) (w ++ h ++ e)
      = coreObs cfg (CoreState.reset cfg) (w ++ h) ++ coreObs cfg (afterSetup cfg (coreConfigured cfg)) e := by
    rw [coreObs_append, hstart.run]
  refine ⟨by rw [coreRun_append, hstart.run, hrun], ?_, ?_, ?_⟩
  · rw [hobs, busOf_append, hstart.bus, hbus, diesBus_append, ← setupBus_writeEnd cfg (cfg.nbanks - 1), List.append_assoc,
      List.append_assoc]
  · rw [hobs, busyOf_append, busyOf_eq_replicate (hstart.atWork.mono fun _ hk => hk.busy),
      busyOf_eq_replicate (hrest.mono fun _ hk => hk.notBusy), List.length_append, helen]
  · refine throughout_append.2 ⟨hstart.atWork.mono fun _ hk => hk.sel, ?_⟩
    rw [hstart.run]
    exact hrest.mono fun _ hk => sel_of_regSelect hk.regSelect

end Boot

/-! ## The machine -/

section Machine

variable {s : State} {i : Inputs} {is w h rest : List Inputs}

/-- The PHY's lock as the device gives it (20_memory.md R101). -/
theorem devicePhyIn_pllLocked (d : Device) (n : Nat) : (d.phyIn n).pllLocked = decide (d.lockAt ≤ n) := by
  unfold Device.phyIn
  split <;> rfl

/-- Before the lock the PHY is not locked, and the wait for the lock gets shorter. -/
theorem locksBetween_cons (hs : s.sched = i :: rest) (hl : locksBetween s (i :: w) h = true) :
    s.phyIn.pllLocked = false ∧ locksBetween s.clock w h = true := by
  unfold locksBetween at hl ⊢
  unfold State.phyIn
  cases hd : s.device with
  | none => simp_all [State.scheduled]
  | some d =>
    simp only [hd, beq_iff_eq, List.length_cons] at hl
    simp only [devicePhyIn_pllLocked, clock_device, hd, Option.map_some, clock_cycle, deviceTick_lockAt, beq_iff_eq,
      decide_eq_false_iff_not]
    omega

theorem lockedFor_of_locksBetween (hl : locksBetween s [] h = true) : lockedFor s h = true := by
  unfold locksBetween at hl
  unfold lockedFor
  cases hd : s.device with
  | none => simpa [hd] using hl
  | some d => simpa [hd] using (beq_iff_eq.1 (by simpa [hd] using hl) : d.lockAt = s.cycle).le

/-- The PHY is not locked in the applied cycles of the wait, and it is afterwards. -/
theorem applied_locksBetween (hs : s.sched = w ++ rest) (hl : locksBetween s w h = true) :
    (∀ a ∈ applied w.length s, a.phy.pllLocked = false) ∧ lockedFor (cycles w.length s) h = true := by
  induction w generalizing s with
  | nil => exact ⟨List.forall_mem_nil _, lockedFor_of_locksBetween hl⟩
  | cons i w ih =>
    obtain ⟨hi, hclock⟩ := locksBetween_cons hs hl
    obtain ⟨hw, hh⟩ := ih (s := s.clock) (by simp [hs]) hclock
    refine ⟨List.forall_mem_cons.2 ⟨?_, hw⟩, hh⟩
    rw [State.inputs, present_phy]
    exact hi

/-- With no request the scheduled CSR accesses are applied as they are. -/
theorem applied_csr (hs : s.sched = is ++ rest) (hr : s.req = none) : (applied is.length s).map Inputs.csr = is.map Inputs.csr := by
  induction is generalizing s with
  | nil => rfl
  | cons i is ih =>
    rw [List.length_cons, applied, List.map_cons, ih (s := s.clock) (by simp [hs]) (by simp [hr]), inputs_of_cons hs hr,
      List.map_cons]

theorem applied_noCsrWrite (hs : s.sched = is ++ rest) (hr : s.req = none) {m : Nat} (h : ∀ i ∈ is.drop m, i.csr.we = false) :
    ∀ a ∈ (applied is.length s).drop m, a.csr.we = false := by
  have hsame : ((applied is.length s).drop m).map Inputs.csr = (is.drop m).map Inputs.csr := by
    rw [List.map_drop, applied_csr hs hr, List.map_drop]
  have hall : ∀ c ∈ (is.drop m).map Inputs.csr, c.we = false := List.forall_mem_map.2 h
  rw [← hsame] at hall
  exact List.forall_mem_map.1 hall

end Machine

/-- Settles O46: `coreRun_boot` over whatever is applied. -/
theorem bootFromReset : Obligations.BootFromReset := by
  intro s w h rest hwf hcore hreq hs hl hr hlen hcsr
  obtain ⟨hrw, hrh⟩ := List.forall_mem_append.1 hr
  rw [List.append_assoc] at hs
  obtain ⟨hunlocked, hlocked⟩ := applied_locksBetween hs hl
  have hst : (cycles w.length s).sched = h ++ rest := by rw [cycles_sched, hs, List.drop_left]
  obtain ⟨m, hm, hcount⟩ : ∃ m, h.length = m + (s.cfg.txLatency + 2) ∧
      m = s.cfg.nbanks * (7 + s.cfg.txLatency) + ((s.cfg.nbanks - 1) * (7 + s.cfg.txLatency) + 5) := by
    obtain ⟨-, hbanks, -⟩ := (wf_iff s.cfg).1 hwf
    refine ⟨_, ?_, rfl⟩
    rcases hbanks with hb | hb <;> rw [hlen, hb] <;> omega
  rw [hm, Nat.add_sub_cancel] at hcsr
  have happ := applied_add w.length h.length s
  have hreset := applied_noReset hst hrh
  have hlock := applied_locked hst hlocked
  have hend := applied_noCsrWrite hst (cycles_req_none _ hreq) hcsr
  have hgs := applied_length h.length (cycles w.length s)
  generalize applied h.length (cycles w.length s) = gs at happ hreset hlock hend hgs
  have htake : (gs.take m).length = m := by rw [List.length_take]; omega
  obtain ⟨hrun, hbus, hbusy, hsel⟩ := coreRun_boot (w := applied w.length s) hwf
    (List.forall_mem_append.2 ⟨applied_noReset hs hrw, fun a ha => hreset a (List.mem_of_mem_take ha)⟩) hunlocked
    (fun a ha => hlock a (List.mem_of_mem_take ha)) (htake.trans hcount)
    (fun a ha => (quiet_iff a).2 ⟨hreset a (List.mem_of_mem_drop ha), hend a ha⟩) (by rw [List.length_drop]; omega)
  rw [List.append_assoc, List.take_append_drop, ← happ, ← hcore] at hrun hbus hbusy hsel
  rw [applied_length] at hbus hbusy
  have hsilent : ∀ o ∈ coreObs s.cfg s.core (applied (w.length + h.length) s), o.out.dp.cmdReady = false ∧ NoWord o.out.dp :=
    throughout_coreObs (fun _ _ => dpOut_of_sel) hsel
  obtain ⟨hhand, htaken⟩ := noWord_passes fun o ho => (hsilent o ho).2
  refine ⟨coreObs s.cfg s.core (applied (w.length + h.length) s), by rw [cycles_core, hrun]; rfl, cycles_trace _ _, hbus, ?_,
    fun o ho => (hsilent o ho).1, hhand, htaken⟩
  rw [hbusy, htake, hm, ← Nat.add_assoc, Nat.add_sub_cancel]

end Sys2Proof.Proofs
end

section
/-! Proofs about the start-up with ENV-REF behind the PHY (70_reset_and_hazards.md R402, R403; 20_memory.md R103, R105): every die takes
`CFG.CR0`, and nothing else of the device's store changes. -/

namespace Sys2Proof.Proofs

open Sys2Proof Sys2Proof.Machine Sys2Proof.Safety Sys2Proof.Laws

/-! ## The register that a configuration write addresses -/

section Address

variable {cfg : Cfg}

/-- The address of configuration register 0 of a die: bit 11 is register type 1. -/
theorem addr_caAutocfg (cfg : Cfg) (die : BitVec 1) :
    caAddr (caAutocfg cfg die) =
      if selectsUpperDie cfg (die.zeroExtend 2) then BitVec.twoPow 32 cfg.dieBit ||| BitVec.twoPow 32 11
      else BitVec.twoPow 32 11 := by
  have hcr0 : BitVec.twoPow 32 11 = 0x800#32 := by decide
  rw [caAutocfg_eq, caAddr_caOf, regAddr_eq, hcr0]
  cases selectsUpperDie cfg (die.zeroExtend 2) <;> simp [BitVec.twoPow_eq]

/-- ENV-REF reads the die number back as long as the die bit is none of the register address's own (20_memory.md R103). -/
theorem die_caAutocfg (hhigh : cfg.dieBit ≤ 31) (hbit : cfg.nbanks = 2 → 3 ≤ cfg.dieBit ∧ cfg.dieBit ≠ 11) (d : Device)
    (die : BitVec 1) : (withPacket d (caAutocfg cfg die)).die cfg = selectsUpperDie cfg (die.zeroExtend 2) := by
  by_cases hb : cfg.nbanks = 2
  · obtain ⟨hlow, hne⟩ := hbit hb
    have hfield := caAddr_getLsbD (caAutocfg cfg die) hhigh
    rw [if_neg (by omega), addr_caAutocfg] at hfield
    rw [Device.die, withPacket, ← hfield, hb]
    have hlt : cfg.dieBit < 32 := by omega
    have hown : (BitVec.twoPow 32 cfg.dieBit).getLsbD cfg.dieBit = true := by simp [hlt]
    have htype : (BitVec.twoPow 32 11).getLsbD cfg.dieBit = false := by simp [BitVec.getLsbD_twoPow, Ne.symm hne]
    cases selectsUpperDie cfg (die.zeroExtend 2) <;> simp [hown, htype, -BitVec.getLsbD_twoPow]
  · simp [Device.die, selectsUpperDie, hb]

/-- Without the die bit the address is that of configuration register 0. -/
theorem ha_caAutocfg (hbit : cfg.nbanks = 2 → 3 ≤ cfg.dieBit ∧ cfg.dieBit ≠ 11) (d : Device) (die : BitVec 1) :
    (withPacket d (caAutocfg cfg die)).ha cfg = 0x800#32 := by
  have hcr0 : 0x800#32 = BitVec.twoPow 32 11 := by decide
  rw [Device.ha, withPacket, addr_caAutocfg, hcr0]
  by_cases hb : cfg.nbanks = 2
  · obtain ⟨-, hne⟩ := hbit hb
    rw [if_pos hb, ← BitVec.twoPow_eq]
    apply BitVec.eq_of_getLsbD_eq
    intro i hi
    have hapart : i = 11 → ¬ i = cfg.dieBit := by omega
    cases selectsUpperDie cfg (die.zeroExtend 2) <;> simpa [hi, Bool.and_or_distrib_right] using hapart
  · simp [selectsUpperDie, hb]

end Address

/-! ## The dies that have been written -/

theorem ite_mem_append {α : Type} (k : Nat) (dies dies' : List Nat) (v old : α) :
    (if k ∈ dies' then v else if k ∈ dies then v else old) = if k ∈ dies ++ dies' then v else old := by
  by_cases h : k ∈ dies <;> simp [h]

/-- From `d` to `e` the device has taken `CFG.CR0` into the dies `dies`; nothing clocked is on its way to it. -/
structure TookCr0 (cfg : Cfg) (dies : List Nat) (d e : Device) : Prop where
  txDepth : e.txq.length = d.txq.length
  quiet : quietQueue e = true
  cr0a : e.cr0a = if 0 ∈ dies then cfg.cr0 else d.cr0a
  cr0b : e.cr0b = if 1 ∈ dies then cfg.cr0 else d.cr0b
  mem : e.mem = d.mem
  id0 : e.id0 = d.id0

section Dies

variable {cfg : Cfg} {n k : Nat} {d e f : Device} {dies dies' : List Nat}

theorem TookCr0.append (h : TookCr0 cfg dies d e) (h' : TookCr0 cfg dies' e f) : TookCr0 cfg (dies ++ dies') d f where
  txDepth := h'.txDepth.trans h.txDepth
  quiet := h'.quiet
  cr0a := by rw [h'.cr0a, h.cr0a, ite_mem_append]
  cr0b := by rw [h'.cr0b, h.cr0b, ite_mem_append]
  mem := h'.mem.trans h.mem
  id0 := h'.id0.trans h.id0

theorem deviceAfter_append {xs ys : List BusOut} :
    deviceAfter cfg n d (xs ++ ys) = deviceAfter cfg (n + xs.length) (deviceAfter cfg n d xs) ys := by
  induction xs generalizing n d with
  | nil => rfl
  | cons x xs ih => rw [List.cons_append, deviceAfter, ih, deviceAfter, List.length_cons, Nat.add_right_comm, Nat.add_assoc]

theorem deviceAfter_txq_length (cfg : Cfg) (n : Nat) (d : Device) (bs : List BusOut) :
    (deviceAfter cfg n d bs).txq.length = d.txq.length := by
  induction bs generalizing n d with
  | nil => rfl
  | cons b bs ih => rw [deviceAfter, ih, tick_txq_length]

/-- Idle bus cycles write nothing. -/
theorem tookCr0_idle (hq : quietQueue d = true) (m : Nat) :
    TookCr0 cfg [] d (deviceAfter cfg n d (List.replicate m BusOut.idle)) := by
  have hrecords : unclocked (d.txq ++ List.replicate m BusOut.idle) = true := by
    rw [unclocked, List.all_append, Bool.and_eq_true]
    exact ⟨hq, List.all_eq_true.2 fun b hb => by rw [List.eq_of_mem_replicate hb]; rfl⟩
  obtain ⟨slot, ca, hrun⟩ := devRun_unclocked (cfg := cfg) (n := n) (d := d)
    (unclocked_take hrecords (List.replicate m BusOut.idle).length)
  have hlen := deviceAfter_txq_length cfg n d (List.replicate m BusOut.idle)
  rw [deviceAfter_eq, hrun] at hlen ⊢
  exact ⟨hlen, unclocked_drop hrecords _, rfl, rfl, rfl, rfl⟩

/-- A cycle in which a client offers the word `v`, the last. -/
def offeringCycle (v : HalfWord) : Inputs :=
  { operandCycle with dp := { operandCycle.dp with wdata := { data := v, we := 0b11#2, last := true } } }

/-- A configuration write puts on the bus what a client's register write of one word does. -/
theorem fullWriteBus_eq_regWrBus (cfg : Cfg) (ca : CaPacket) (v : HalfWord) :
    fullWriteBus cfg ca v = regWrBus cfg ca [offeringCycle v] := by
  rw [fullWriteBus, wordWriteBus, List.cons_append]
  rfl

theorem writeReg_cr0 (die : Bool) (v : HalfWord) :
    d.writeReg die 0x800#32 v = if die then { d with cr0b := v } else { d with cr0a := v } := if_pos rfl

/-- A die that is there is die 0, the lower one, or die 1, the upper one. -/
theorem selectsUpperDie_ofNat (hbanks : cfg.nbanks = 1 ∨ cfg.nbanks = 2) (hk : k < cfg.nbanks) :
    (k = 0 ∨ k = 1) ∧ selectsUpperDie cfg ((BitVec.ofNat 1 k).zeroExtend 2) = decide (k = 1) := by
  obtain rfl | ⟨rfl, hb⟩ : k = 0 ∨ k = 1 ∧ cfg.nbanks = 2 := by omega
  · simp [selectsUpperDie]
  · simp [selectsUpperDie, hb]

/-- A configuration write to a die. -/
theorem tookCr0_die (hwf : cfg.wf = true) (hbit : cfg.nbanks = 2 → 3 ≤ cfg.dieBit ∧ cfg.dieBit ≠ 11) (hk : k < cfg.nbanks)
    (hlen : d.txq.length = cfg.txLatency) (hq : quietQueue d = true) :
    TookCr0 cfg [k] d (deviceAfter cfg n d (fullWriteBus cfg (caAutocfg cfg (BitVec.ofNat 1 k)) cfg.cr0)) := by
  obtain ⟨-, hbanks, hhigh, -⟩ := (wf_iff cfg).1 hwf
  obtain ⟨hk01, hdie⟩ := selectsUpperDie_ofNat hbanks hk
  obtain ⟨x, more, slot, ca, q, r, hquiet, hafter⟩ := deviceAfter_regWrBus (cfg := cfg) (n := n) (d := d)
    (ca := caAutocfg cfg (BitVec.ofNat 1 k)) (ws := [offeringCycle cfg.cr0]) hlen hq (by simp [caAutocfg_eq])
    (by simp [caAutocfg_eq]) rfl
  rw [die_caAutocfg hhigh hbit, ha_caAutocfg hbit, writeReg_cr0, hdie] at hafter
  have hdepth := deviceAfter_txq_length cfg n d (regWrBus cfg (caAutocfg cfg (BitVec.ofNat 1 k)) [offeringCycle cfg.cr0])
  rw [fullWriteBus_eq_regWrBus]
  rw [hafter] at hdepth ⊢
  rcases hk01 with rfl | rfl <;> exact ⟨hdepth, hquiet, rfl, rfl, rfl, rfl⟩

theorem tookCr0_dies (hwf : cfg.wf = true) (hbit : cfg.nbanks = 2 → 3 ≤ cfg.dieBit ∧ cfg.dieBit ≠ 11)
    (hlen : d.txq.length = cfg.txLatency) (hq : quietQueue d = true) (hdies : ∀ k ∈ dies, k < cfg.nbanks) :
    TookCr0 cfg dies d (deviceAfter cfg n d (diesBus cfg dies)) := by
  induction dies generalizing n d with
  | nil => exact tookCr0_idle hq 0
  | cons k dies ih =>
    obtain ⟨hk, hdies⟩ := List.forall_mem_cons.1 hdies
    have hdie := tookCr0_die (n := n) hwf hbit hk hlen hq
    rw [diesBus, List.flatMap_cons, deviceAfter_append]
    exact hdie.append (ih (hdie.txDepth.trans hlen) hdie.quiet hdies)

theorem mem_diesDown : k ∈ diesDown n ↔ k ≤ n := by
  induction n with
  | zero => simp [diesDown]
  | succ n ih => rw [diesDown, List.mem_cons, ih]; omega

end Dies

/-- Settles O53: the device is fed the bus cycles of `bootFromReset`. -/
theorem bootConfiguresDevice : Obligations.BootConfiguresDevice := by
  intro s d w h rest hwf hcore hreq hs hdev htx hquiet hlock hr hlen hcsr hbit
  obtain ⟨-, hbanks, -⟩ := (wf_iff s.cfg).1 hwf
  have hlocks : locksBetween s w h = true := by simp [locksBetween, hdev, hlock]
  obtain ⟨obs, -, htrace, hbus, -⟩ := bootFromReset s w h rest hwf hcore hreq hs hlocks hr hlen hcsr
  have hobs : coreObs s.cfg s.core (applied (w.length + h.length) s) = obs :=
    List.append_cancel_left ((cycles_trace _ _).symm.trans htrace)
  have hmem (k : Nat) : k ∈ diesDown (s.cfg.nbanks - 1) ++ diesDown (s.cfg.nbanks - 1) ↔ k ≤ s.cfg.nbanks - 1 := by
    rw [List.mem_append, or_self, mem_diesDown]
  have hwait := tookCr0_idle (cfg := s.cfg) (n := s.cycle) hquiet w.length
  have hboot := hwait.append <| tookCr0_dies (n := s.cycle + (List.replicate w.length BusOut.idle).length) hwf hbit
    (hwait.txDepth.trans htx) hwait.quiet fun k hk => show k < s.cfg.nbanks by have := (hmem k).1 hk; omega
  rw [List.nil_append, ← deviceAfter_append] at hboot
  refine ⟨_, ?_, hboot.cr0a.trans (if_pos ((hmem 0).2 (Nat.zero_le _))), hboot.cr0b.trans ?_, hboot.mem, hboot.id0⟩
  · rw [cycles_device, hobs, hdev, hbus]
    rfl
  · have hupper : 1 ≤ s.cfg.nbanks - 1 ↔ s.cfg.nbanks = 2 := by omega
    simp only [hmem, hupper]

end Sys2Proof.Proofs
end
